-- ==== Sys2Proof/Word.lean ====
section
/-! DEFINITION. The words of the MLU: bit vectors of the widths that 00_scope.md rule R7 and 10_state.md rules R25
and R27 give the command word, the ports and the response fields. -/

namespace Sys2Proof

/-- The command word CMD, 16 bits (R25, R60). -/
abbrev CmdWord := BitVec 16

/-- A 512-bit port: A, B of a request (R25), R, RH of a response (R27). -/
abbrev Port := BitVec 512

/-- One 64-bit limb (R6, R13). -/
abbrev Limb := BitVec 64

/-- One byte of a value or of a byte sequence (R41, R43). -/
abbrev Byte := BitVec 8

/-- The ERR field of a response, 3 bits (R27, R241). -/
abbrev ErrCode := BitVec 3

/-- The ORD field of a response, 2 bits (R27, R30). -/
abbrev OrdCode := BitVec 2

end Sys2Proof
end

