-- ==== Sys2Proof/Config.lean ====
section
/-! DEFINITION. What 00_scope.md fixes for the unit (R6, R7) and the one parameter it leaves open (R8). -/

namespace Sys2Proof

/-- LIMB: bits in a limb (R6, R7). -/
def Config.limbBits : Nat := 64

/-- WMAX: the largest operating width and the width of the ports A, B, R, RH (R7). -/
def Config.portBits : Nat := 512

/-- The most bytes a port carries, WMAX / 8: the longest source RDBE and RDLE can be given (R226). -/
def Config.portBytes : Nat := 64

/-- CMDW: bits in the command word (R7). -/
def Config.cmdBits : Nat := 16

/-- ERRW: bits in the error code (R7). -/
def Config.errBits : Nat := 3

/-- NKIND: numeric kinds the conversions know (R7, R201). -/
def Config.kindCount : Nat := 14

/-- The two values of the parameter REM_MIN_NEG1 (R8, R143): what signed REM gives for MinValue by minus one. -/
inductive RemMinNeg1 where
  | overflow
  | zero
  deriving DecidableEq, Repr, Inhabited

/-- REM_MIN_NEG1, the one open parameter of the spec (R8, D12, U4). It has no body: nothing in Lean can tell which of
the two values it has. Notes, log 4; safe. -/
opaque Config.remMinNeg1 : RemMinNeg1

end Sys2Proof
end

