-- ==== Sys2Proof/Syntax.lean ====
section
/-! DEFINITION. The whole syntax of the MLU: the four types, the kinds, the 45 instructions (one constructor per row of
opcode_table.json), and the request lines of 30_encoding.md rule R70. -/

namespace Sys2Proof

/-- The operating width, WSEL (R62). -/
inductive Width where
  | w256
  | w512
  deriving DecidableEq, Repr

/-- W, in bits (R6). -/
def Width.bits : Width → Nat
  | .w256 => 256
  | .w512 => 512

/-- H = W / 2, in bits (R16). -/
def Width.halfBits : Width → Nat
  | .w256 => 128
  | .w512 => 256

/-- L = W / 64, the number of limbs (R6). -/
def Width.limbs : Width → Nat
  | .w256 => 4
  | .w512 => 8

/-- NB = W / 8, the number of bytes (R41, 47_codec.md). -/
def Width.bytes : Width → Nat
  | .w256 => 32
  | .w512 => 64

/-- One of the four types U256, S256, U512, S512, selected by S and WSEL (R16, R63). -/
structure Ty where
  signed : Bool
  width : Width
  deriving DecidableEq, Repr

/-- W of a type. -/
abbrev Ty.bits (ty : Ty) : Nat := ty.width.bits

/-- The type U256 (R16). -/
def Ty.u256 : Ty := ⟨false, .w256⟩
/-- The type S256 (R16). -/
def Ty.s256 : Ty := ⟨true, .w256⟩
/-- The type U512 (R16). -/
def Ty.u512 : Ty := ⟨false, .w512⟩
/-- The type S512 (R16). -/
def Ty.s512 : Ty := ⟨true, .w512⟩

/-- The overflow policy, POL (R64). -/
inductive Policy where
  | wrapping
  | checked
  | saturating
  deriving DecidableEq, Repr

/-- The sixteen KIND codes of the conversions (R201): the fourteen kinds, and the codes 14 and 15 that name none. -/
inductive Kind where
  | u8 | i8 | u16 | i16 | u32 | i32 | u64 | i64 | u128 | i128 | u256 | i256 | u512 | i512
  | none14 | none15
  deriving DecidableEq, Repr

/-- One command of the unit: one constructor per row of opcode_table.json. `ty` is S with WSEL (R63), `kind` the KIND
of a conversion (R65), `isUnsigned` KIND bit 0 of a codec read (R65). Every field is typed, so every term is a legal
command (R66): there is no ill-formed one. -/
inductive Instr where
  | cat (ty : Ty)
  | upr (ty : Ty)
  | lwr (ty : Ty)
  | add (ty : Ty)
  | addC (ty : Ty)
  | sub (ty : Ty)
  | subC (ty : Ty)
  | neg (ty : Ty)
  | negC (ty : Ty)
  | inc (ty : Ty)
  | incC (ty : Ty)
  | dec (ty : Ty)
  | decC (ty : Ty)
  | mul (ty : Ty)
  | mulC (ty : Ty)
  | bmul (ty : Ty)
  | div (ty : Ty)
  | divC (ty : Ty)
  | rem (ty : Ty)
  | remC (ty : Ty)
  | divrem (ty : Ty)
  | divremC (ty : Ty)
  | and (ty : Ty)
  | or (ty : Ty)
  | xor (ty : Ty)
  | not (ty : Ty)
  | shl (ty : Ty)
  | shr (ty : Ty)
  | shrl (ty : Ty)
  | rol (ty : Ty)
  | ror (ty : Ty)
  | lzc (ty : Ty)
  | tzc (ty : Ty)
  | popc (ty : Ty)
  | cmp (ty : Ty)
  | cvtto (ty : Ty) (kind : Kind)
  | cvttoC (ty : Ty) (kind : Kind)
  | cvttoSat (ty : Ty) (kind : Kind)
  | cvtfrom (ty : Ty) (kind : Kind)
  | cvtfromC (ty : Ty) (kind : Kind)
  | cvtfromSat (ty : Ty) (kind : Kind)
  | wrbe (ty : Ty)
  | wrle (ty : Ty)
  | rdbe (ty : Ty) (isUnsigned : Bool)
  | rdle (ty : Ty) (isUnsigned : Bool)
  deriving DecidableEq, Repr

/-- S and WSEL of an instruction. -/
def Instr.ty : Instr → Ty
  | .cat ty | .upr ty | .lwr ty | .add ty | .addC ty | .sub ty | .subC ty | .neg ty | .negC ty
  | .inc ty | .incC ty | .dec ty | .decC ty | .mul ty | .mulC ty | .bmul ty | .div ty | .divC ty
  | .rem ty | .remC ty | .divrem ty | .divremC ty | .and ty | .or ty | .xor ty | .not ty
  | .shl ty | .shr ty | .shrl ty | .rol ty | .ror ty | .lzc ty | .tzc ty | .popc ty | .cmp ty
  | .wrbe ty | .wrle ty => ty
  | .cvtto ty _ | .cvttoC ty _ | .cvttoSat ty _ | .cvtfrom ty _ | .cvtfromC ty _ | .cvtfromSat ty _ => ty
  | .rdbe ty _ | .rdle ty _ => ty

/-- An operand of a request line (R70): a number (a negative one n stands for the pattern `bv(512, n)`), MAX, MIN, or a
field of an earlier line's response. Labels are numbers here (log 17). -/
inductive Operand where
  | num (n : Int)
  | max
  | min
  | fieldR (label : Nat)
  | fieldRH (label : Nat)
  deriving DecidableEq, Repr

/-- One request line (R70): label, mnemonic with its suffixes, operands. A missing opB is the number 0. -/
structure Line where
  label : Nat
  instr : Instr
  opA : Operand
  opB : Operand
  deriving DecidableEq, Repr

/-- A program: the list of requests a requester makes one after another (R22, R70). -/
abbrev Program := List Line

end Sys2Proof
end

