-- ==== Sys2Proof/WellFormed.lean ====
section
/-! DEFINITION. What is well formed: a command word (30_encoding.md rule R66, its five checks, declaratively, beside the
decoder that performs them in R69's order) and a program of request lines (R70). A term of Instr is always well formed:
its fields are typed. -/

namespace Sys2Proof

/-- The raw fields of a command word (R61). -/
structure Fields where
  rsv : BitVec 2
  kind : BitVec 4
  pol : BitVec 2
  s : BitVec 1
  wsel : BitVec 1
  opc : BitVec 6
  deriving DecidableEq, Repr

/-- The 32 assigned operation codes (R67). -/
def assignedOpcodes : List Nat :=
  [0x01, 0x02, 0x03, 0x08, 0x09, 0x0A, 0x0B, 0x0C, 0x10, 0x11, 0x18, 0x19, 0x1A] ++
  [0x20, 0x21, 0x22, 0x23, 0x24, 0x25, 0x26, 0x27, 0x28, 0x29, 0x2A, 0x2B, 0x30, 0x34, 0x35] ++
  [0x38, 0x39, 0x3A, 0x3B]

/-- The operation codes with a checked policy: the add/sub family, MUL, the divide family (R64). -/
def checkedOpcodes : List Nat := [0x08, 0x09, 0x0A, 0x0B, 0x0C, 0x10, 0x18, 0x19, 0x1A]

/-- CVTTO and CVTFROM (R65). -/
def conversionOpcodes : List Nat := [0x34, 0x35]

/-- RDBE and RDLE (R65). -/
def codecReadOpcodes : List Nat := [0x3A, 0x3B]

/-- RSV is 00 (R66 item 1). -/
def Fields.rsvOk (f : Fields) : Bool := f.rsv == 0

/-- OPC is assigned (R66 item 2). -/
def Fields.opcOk (f : Fields) : Bool := assignedOpcodes.contains f.opc.toNat

/-- POL is one the operation's row of R64 allows (R66 item 3). -/
def Fields.polOk (f : Fields) : Bool :=
  f.pol == 0 || (f.pol == 1 && checkedOpcodes.contains f.opc.toNat) ||
    (f.pol.toNat ≤ 2 && conversionOpcodes.contains f.opc.toNat)

/-- KIND is 0000 unless the operation is a conversion or a codec read (R66 item 4). -/
def Fields.kindOk (f : Fields) : Bool :=
  f.kind == 0 || conversionOpcodes.contains f.opc.toNat || codecReadOpcodes.contains f.opc.toNat

/-- KIND bits 13:11 are 000 for a codec read (R66 item 5). -/
def Fields.readKindOk (f : Fields) : Bool :=
  !codecReadOpcodes.contains f.opc.toNat || f.kind.toNat ≤ 1

/-- A legal command: none of the five conditions of R66 holds. -/
def Fields.wellFormed (f : Fields) : Bool :=
  f.rsvOk && f.opcOk && f.polOk && f.kindOk && f.readKindOk

/-- The labels an operand names. -/
def Operand.labels : Operand → List Nat
  | .fieldR l => [l]
  | .fieldRH l => [l]
  | .num _ => []
  | .max => []
  | .min => []

/-- A number operand lies in what a 512-bit port can be given (R70; log 17). -/
def Operand.inRange : Operand → Bool
  | .num n => decide (-(2 ^ 511 : Nat) ≤ n) && decide (n < (2 ^ 512 : Nat))
  | .fieldR _ => true
  | .fieldRH _ => true
  | .max => true
  | .min => true

/-- A line is well formed after the lines with the labels `seen`: its operands name earlier lines only (R70). DESIGN CHOICE
(log 17): its label is new, its numbers fit a port; R70 says neither whether two lines may have one label nor how large
a number may be. -/
def Line.wellFormed (seen : List Nat) (l : Line) : Bool :=
  !seen.contains l.label && (l.opA.labels ++ l.opB.labels).all seen.contains && l.opA.inRange && l.opB.inRange

/-- Every line is well formed after the lines before it (R70). -/
def Program.wellFormedAfter (seen : List Nat) : List Line → Bool
  | [] => true
  | l :: ls => l.wellFormed seen && Program.wellFormedAfter (l.label :: seen) ls

/-- A well-formed program (R70). -/
def Program.wellFormed (p : Program) : Bool := Program.wellFormedAfter [] p

end Sys2Proof
end

