-- ==== Sys2Proof/Decode.lean ====
section
/-! DEFINITION. The decoder of command words, total on all 2^16 words, rejecting by name in the order of 30_encoding.md
rule R69; and the encoder, from the same tables (R61, R64, R65, R67). -/

namespace Sys2Proof

/-- Why a word is illegal: the five items of R66. Each gives the response IllegalRequest. -/
inductive Reject where
  /-- RSV is not 00 (item 1). -/
  | reservedBits
  /-- OPC is not assigned (item 2). -/
  | unassignedOpcode
  /-- POL is 11 or not allowed for the operation (item 3). -/
  | policyNotAllowed
  /-- KIND is not 0000 on an operation without a kind (item 4). -/
  | kindNotZero
  /-- KIND bits 13:11 are not 000 on a codec read (item 5). -/
  | readKindReserved
  deriving DecidableEq, Repr

/-- The fields of a command word (R61). -/
def fieldsOf (w : CmdWord) : Fields where
  rsv := w.extractLsb' 14 2
  kind := w.extractLsb' 10 4
  pol := w.extractLsb' 8 2
  s := w.extractLsb' 7 1
  wsel := w.extractLsb' 6 1
  opc := w.extractLsb' 0 6

/-- The command word of some fields: OPC + 64 WSEL + 128 S + 256 POL + 1024 KIND + 16384 RSV (R61). -/
def wordOf (f : Fields) : CmdWord :=
  BitVec.ofNat 16 (f.opc.toNat + 64 * f.wsel.toNat + 128 * f.s.toNat + 256 * f.pol.toNat +
    1024 * f.kind.toNat + 16384 * f.rsv.toNat)

/-- S and WSEL give the type (R63). -/
def tyOf (f : Fields) : Ty where
  signed := f.s == 1
  width := if f.wsel == 0 then .w256 else .w512

/-- The kind a KIND code names (R201). -/
def kindOf (k : BitVec 4) : Kind :=
  match k.toNat with
  | 0 => .u8
  | 1 => .i8
  | 2 => .u16
  | 3 => .i16
  | 4 => .u32
  | 5 => .i32
  | 6 => .u64
  | 7 => .i64
  | 8 => .u128
  | 9 => .i128
  | 10 => .u256
  | 11 => .i256
  | 12 => .u512
  | 13 => .i512
  | 14 => .none14
  | _ => .none15

/-- The KIND code of a kind (R201). -/
def Kind.code : Kind → BitVec 4
  | .u8 => 0
  | .i8 => 1
  | .u16 => 2
  | .i16 => 3
  | .u32 => 4
  | .i32 => 5
  | .u64 => 6
  | .i64 => 7
  | .u128 => 8
  | .i128 => 9
  | .u256 => 10
  | .i256 => 11
  | .u512 => 12
  | .i512 => 13
  | .none14 => 14
  | .none15 => 15

/-- An operation without policy and kind: POL then KIND must be zero (R64, R65, R69). -/
def noPolicy (f : Fields) (i : Instr) : Except Reject Instr :=
  if f.pol ≠ 0 then .error .policyNotAllowed
  else if f.kind ≠ 0 then .error .kindNotZero
  else .ok i

/-- An operation with a wrapping and a checked policy and no kind (R64, R65, R69). -/
def twoPolicies (f : Fields) (wrapping checked : Instr) : Except Reject Instr :=
  if f.pol = 0 then (if f.kind ≠ 0 then .error .kindNotZero else .ok wrapping)
  else if f.pol = 1 then (if f.kind ≠ 0 then .error .kindNotZero else .ok checked)
  else .error .policyNotAllowed

/-- A conversion: three policies, every KIND legal (R64, R65, R66). -/
def threePolicies (f : Fields) (truncating checked saturating : Kind → Instr) : Except Reject Instr :=
  if f.pol = 0 then .ok (truncating (kindOf f.kind))
  else if f.pol = 1 then .ok (checked (kindOf f.kind))
  else if f.pol = 2 then .ok (saturating (kindOf f.kind))
  else .error .policyNotAllowed

/-- A codec read: no policy, KIND bit 0 is isUnsigned, KIND bits 3:1 zero (R65, R66 item 5). -/
def codecRead (f : Fields) (read : Bool → Instr) : Except Reject Instr :=
  if f.pol ≠ 0 then .error .policyNotAllowed
  else if f.kind.extractLsb' 1 3 ≠ 0 then .error .readKindReserved
  else .ok (read (f.kind.getLsbD 0))

/-- The opcode map (R67), with the POL and KIND checks of each row. -/
def decodeOperation (f : Fields) (ty : Ty) : Except Reject Instr :=
  match f.opc.toNat with
  | 0x01 => noPolicy f (.cat ty)
  | 0x02 => noPolicy f (.upr ty)
  | 0x03 => noPolicy f (.lwr ty)
  | 0x08 => twoPolicies f (.add ty) (.addC ty)
  | 0x09 => twoPolicies f (.sub ty) (.subC ty)
  | 0x0A => twoPolicies f (.neg ty) (.negC ty)
  | 0x0B => twoPolicies f (.inc ty) (.incC ty)
  | 0x0C => twoPolicies f (.dec ty) (.decC ty)
  | 0x10 => twoPolicies f (.mul ty) (.mulC ty)
  | 0x11 => noPolicy f (.bmul ty)
  | 0x18 => twoPolicies f (.div ty) (.divC ty)
  | 0x19 => twoPolicies f (.rem ty) (.remC ty)
  | 0x1A => twoPolicies f (.divrem ty) (.divremC ty)
  | 0x20 => noPolicy f (.and ty)
  | 0x21 => noPolicy f (.or ty)
  | 0x22 => noPolicy f (.xor ty)
  | 0x23 => noPolicy f (.not ty)
  | 0x24 => noPolicy f (.shl ty)
  | 0x25 => noPolicy f (.shr ty)
  | 0x26 => noPolicy f (.shrl ty)
  | 0x27 => noPolicy f (.rol ty)
  | 0x28 => noPolicy f (.ror ty)
  | 0x29 => noPolicy f (.lzc ty)
  | 0x2A => noPolicy f (.tzc ty)
  | 0x2B => noPolicy f (.popc ty)
  | 0x30 => noPolicy f (.cmp ty)
  | 0x34 => threePolicies f (.cvtto ty) (.cvttoC ty) (.cvttoSat ty)
  | 0x35 => threePolicies f (.cvtfrom ty) (.cvtfromC ty) (.cvtfromSat ty)
  | 0x38 => noPolicy f (.wrbe ty)
  | 0x39 => noPolicy f (.wrle ty)
  | 0x3A => codecRead f (.rdbe ty)
  | 0x3B => codecRead f (.rdle ty)
  | _ => .error .unassignedOpcode

/-- Decoding, total on all words, checks in the order RSV, OPC, POL, KIND; no check reads A or B (R69). -/
def decode (w : CmdWord) : Except Reject Instr :=
  let f := fieldsOf w
  if f.rsv ≠ 0 then .error .reservedBits else decodeOperation f (tyOf f)

/-- The fields of a command for an operation code, a policy, a kind code and a type, RSV zero (R61). -/
def command (opc : BitVec 6) (pol : BitVec 2) (kind : BitVec 4) (ty : Ty) : Fields where
  rsv := 0
  kind := kind
  pol := pol
  s := if ty.signed then 1 else 0
  wsel := if ty.width = .w256 then 0 else 1
  opc := opc

/-- KIND of a codec read (R65). -/
def readKind (isUnsigned : Bool) : BitVec 4 := if isUnsigned then 1 else 0

/-- The fields that say an instruction (R61, R63 to R65, R67). -/
def Instr.fields : Instr → Fields
  | .cat ty => command 0x01 0 0 ty
  | .upr ty => command 0x02 0 0 ty
  | .lwr ty => command 0x03 0 0 ty
  | .add ty => command 0x08 0 0 ty
  | .addC ty => command 0x08 1 0 ty
  | .sub ty => command 0x09 0 0 ty
  | .subC ty => command 0x09 1 0 ty
  | .neg ty => command 0x0A 0 0 ty
  | .negC ty => command 0x0A 1 0 ty
  | .inc ty => command 0x0B 0 0 ty
  | .incC ty => command 0x0B 1 0 ty
  | .dec ty => command 0x0C 0 0 ty
  | .decC ty => command 0x0C 1 0 ty
  | .mul ty => command 0x10 0 0 ty
  | .mulC ty => command 0x10 1 0 ty
  | .bmul ty => command 0x11 0 0 ty
  | .div ty => command 0x18 0 0 ty
  | .divC ty => command 0x18 1 0 ty
  | .rem ty => command 0x19 0 0 ty
  | .remC ty => command 0x19 1 0 ty
  | .divrem ty => command 0x1A 0 0 ty
  | .divremC ty => command 0x1A 1 0 ty
  | .and ty => command 0x20 0 0 ty
  | .or ty => command 0x21 0 0 ty
  | .xor ty => command 0x22 0 0 ty
  | .not ty => command 0x23 0 0 ty
  | .shl ty => command 0x24 0 0 ty
  | .shr ty => command 0x25 0 0 ty
  | .shrl ty => command 0x26 0 0 ty
  | .rol ty => command 0x27 0 0 ty
  | .ror ty => command 0x28 0 0 ty
  | .lzc ty => command 0x29 0 0 ty
  | .tzc ty => command 0x2A 0 0 ty
  | .popc ty => command 0x2B 0 0 ty
  | .cmp ty => command 0x30 0 0 ty
  | .cvtto ty kind => command 0x34 0 kind.code ty
  | .cvttoC ty kind => command 0x34 1 kind.code ty
  | .cvttoSat ty kind => command 0x34 2 kind.code ty
  | .cvtfrom ty kind => command 0x35 0 kind.code ty
  | .cvtfromC ty kind => command 0x35 1 kind.code ty
  | .cvtfromSat ty kind => command 0x35 2 kind.code ty
  | .wrbe ty => command 0x38 0 0 ty
  | .wrle ty => command 0x39 0 0 ty
  | .rdbe ty isUnsigned => command 0x3A 0 (readKind isUnsigned) ty
  | .rdle ty isUnsigned => command 0x3B 0 (readKind isUnsigned) ty

/-- The command word of an instruction (R61). -/
def encode (i : Instr) : CmdWord := wordOf i.fields

/-- A row of opcode_table.json: a word matches when `w and mask = pattern` (R72). -/
structure OpcodeRow where
  mask : CmdWord
  pattern : CmdWord
  deriving DecidableEq, Repr

/-- A row whose mask covers RSV, KIND, POL and OPC (R72). -/
def plainRow (pattern : CmdWord) : OpcodeRow := ⟨0xFF3F, pattern⟩

/-- The 45 rows of opcode_table.json, in its order (R72). -/
def opcodeTable : List OpcodeRow :=
  ([0x0001, 0x0002, 0x0003, 0x0008, 0x0108, 0x0009, 0x0109, 0x000A, 0x010A, 0x000B, 0x010B, 0x000C, 0x010C,
    0x0010, 0x0110, 0x0011, 0x0018, 0x0118, 0x0019, 0x0119, 0x001A, 0x011A].map plainRow) ++
  ([0x0020, 0x0021, 0x0022, 0x0023, 0x0024, 0x0025, 0x0026, 0x0027, 0x0028, 0x0029, 0x002A, 0x002B,
    0x0030].map plainRow) ++
  [⟨0xC33F, 0x0034⟩, ⟨0xC33F, 0x0134⟩, ⟨0xC33F, 0x0234⟩, ⟨0xC33F, 0x0035⟩, ⟨0xC33F, 0x0135⟩, ⟨0xC33F, 0x0235⟩] ++
  [plainRow 0x0038, plainRow 0x0039, ⟨0xFB3F, 0x003A⟩, ⟨0xFB3F, 0x003B⟩]

/-- A word matches a row. -/
def OpcodeRow.covers (row : OpcodeRow) (w : CmdWord) : Bool := w &&& row.mask == row.pattern

/-- The instruction the decoder reads from an instruction whose bits are `w` in the numbering of opcode_table.json; a
command is one 16-bit word (R60), so bits above `nbits` are zero and none lies above bit 15. -/
def decodeTableWord (nbits w : Nat) : Option Instr :=
  match decode (BitVec.ofNat 16 (w % 2 ^ nbits)) with
  | .ok i => some i
  | .error _ => none

end Sys2Proof
end

