-- ==== Sys2Proof/Machine/State.lean ====
section
/-! DEFINITION. The machine's state as plain data. The spec gives the unit no architectural state (10_state.md rules R20
to R24, R35 to R37); what exists is transactions (R18): the requests in flight and the responses given. -/

namespace Sys2Proof.Machine

/-- A request: command word and the two operand ports, presented together (R25). -/
structure Request where
  cmd : CmdWord
  a : Port
  b : Port
  deriving DecidableEq, Repr

/-- The fields of a value response; a field an operation does not define is zero (R15, R27 to R32). -/
structure Value where
  r : Port := 0
  rh : Port := 0
  c : Bool := false
  ord : OrdCode := 0
  t : Bool := false
  deriving DecidableEq, Repr

/-- The error kinds (R241). `formatError` is D0's and is never raised by the unit (R244, U9; log 15). -/
inductive ErrorKind where
  | overflow
  | divideByZero
  | formatError
  | unsupportedConversion
  | illegalRequest
  deriving DecidableEq, Repr

/-- A response: a value or an error, and an error has no other field (R27, U1; log 5). -/
inductive Response where
  | value (v : Value)
  | error (kind : ErrorKind)
  deriving DecidableEq, Repr

/-- The state: the transactions in flight, oldest first (R36, R51, R271), and the responses given, in the order given
(R27, R51; log 1). There is no register, no program counter, no flag, no mode and no memory (R20 to R24). -/
structure State where
  inFlight : List Request
  responses : List Response
  deriving DecidableEq, Repr

/-- The reasons a step stops with a fault. -/
inductive Fault where
  /-- Raised by a step, or by a meaning, in a state with no request in flight: there is nothing to answer and no response
  to read until a request is made (R36, U2; log 2). Safe: the model stops where the unit waits. -/
  | noRequest
  deriving DecidableEq, Repr

/-- The reasons an instruction is refused. -/
inductive Refusal where
  /-- Raised by an arm of exec whose instruction has no meaning yet; no arm of this model is such an arm. Safe. -/
  | notModelled (mnemonic : String)
  deriving DecidableEq, Repr

/-- After reset nothing is in flight and there is no response to read (R36, R270, R271). -/
def State.reset : State where
  inFlight := []
  responses := []

end Sys2Proof.Machine
end

