-- ==== Sys2Proof/Machine/Operands.lean ====
section
/-! DEFINITION. The notation of 00_scope.md rules R13 and R14 (u, s, val, bv, min, max, fits, trunc_div), the extraction
of operands from ports (10_state.md rule R26, 30_encoding.md rule R68), limbs, bytes and byte sequences (20_memory.md
rules R40 to R43). -/

namespace Sys2Proof.Machine

/-- u(v), the unsigned value (R14). -/
def uval {n : Nat} (v : BitVec n) : Int := (v.toNat : Int)

/-- s(v), the two's-complement value (R14). -/
def sval {n : Nat} (v : BitVec n) : Int := v.toInt

/-- val(S, v) (R14). -/
def val {n : Nat} (signed : Bool) (v : BitVec n) : Int := if signed then sval v else uval v

/-- bv(n, x), the n-bit vector whose unsigned value is x mod 2^n (R14). -/
def bv (n : Nat) (x : Int) : BitVec n := BitVec.ofInt n x

/-- 2^k as an integer. -/
def pow2 (k : Nat) : Int := ((2 ^ k : Nat) : Int)

/-- min(S, n), the least value of an n-bit type (R14). -/
def minVal (signed : Bool) (n : Nat) : Int := if signed then -pow2 (n - 1) else 0

/-- max(S, n), the greatest value of an n-bit type (R14). -/
def maxVal (signed : Bool) (n : Nat) : Int := if signed then pow2 (n - 1) - 1 else pow2 n - 1

/-- fits(S, n, x) (R14). -/
def fits (signed : Bool) (n : Nat) (x : Int) : Bool := decide (minVal signed n ≤ x) && decide (x ≤ maxVal signed n)

/-- trunc_div(x, y), the quotient rounded toward zero (R14). -/
def truncDiv (x y : Int) : Int := Int.tdiv x y

/-- The remainder that goes with trunc_div: x - y * trunc_div(x, y) (R14). -/
def truncRem (x y : Int) : Int := x - y * truncDiv x y

/-- sign(v), the top bit (R14). -/
def sign {n : Nat} (v : BitVec n) : Bool := v.msb

/-- A result of at most 512 bits on a 512-bit port: low bits, zero above (R15, R28). -/
def port {n : Nat} (v : BitVec n) : Port := v.setWidth 512

/-- a = A[W-1:0] (R15, R26). -/
def operandA (ty : Ty) (q : Request) : BitVec ty.bits := q.a.setWidth ty.bits

/-- b = B[W-1:0] (R15, R26). -/
def operandB (ty : Ty) (q : Request) : BitVec ty.bits := q.b.setWidth ty.bits

/-- A[H-1:0], the upper half CAT takes (R91). -/
def halfA (ty : Ty) (q : Request) : BitVec ty.width.halfBits := q.a.setWidth ty.width.halfBits

/-- B[H-1:0], the lower half CAT takes (R91). -/
def halfB (ty : Ty) (q : Request) : BitVec ty.width.halfBits := q.b.setWidth ty.width.halfBits

/-- Upper(v) = v[W-1:H] (R34). -/
def upperHalf (ty : Ty) (v : BitVec ty.bits) : BitVec ty.width.halfBits :=
  v.extractLsb' ty.width.halfBits ty.width.halfBits

/-- Lower(v) = v[H-1:0] (R34). -/
def lowerHalf (ty : Ty) (v : BitVec ty.bits) : BitVec ty.width.halfBits := v.extractLsb' 0 ty.width.halfBits

/-- The shift or rotate amount n = u(b) mod W (R68, R166). -/
def amount (ty : Ty) (q : Request) : Nat := (operandB ty q).toNat % ty.bits

/-- A codec capacity or byte count: the whole of port B as an unsigned number (R68, R221, R226). -/
def byteCount (q : Request) : Nat := q.b.toNat

/-- A[k-1:0], the source of CVTFROM (R206). -/
def sourceA (k : Nat) (q : Request) : BitVec k := q.a.setWidth k

/-- limb(v, i) = v[64i+63:64i] (R13, R40). -/
def limb {n : Nat} (v : BitVec n) (i : Nat) : Limb := v.extractLsb' (64 * i) 64

/-- byte(v, j) = v[8j+7:8j] (R41). -/
def byte {n : Nat} (v : BitVec n) (j : Nat) : Byte := v.extractLsb' (8 * j) 8

/-- The first n byte lanes of a port, lane 0 first (R43). -/
def portBytes (n : Nat) (p : Port) : List Byte := (List.range n).map fun i => byte p i

/-- The number a sequence of bytes denotes when its first byte is the least significant. -/
def bytesNat : List Byte → Nat
  | [] => 0
  | q :: qs => q.toNat + 256 * bytesNat qs

/-- A byte sequence on a port: byte i in lane i, lanes above the sequence zero (R43). -/
def bytesPort (qs : List Byte) : Port := BitVec.ofNat 512 (bytesNat qs)

/-- LE(v): the n bytes of a value, least significant first (R42, G1; log 11). -/
def littleEndian {w : Nat} (n : Nat) (v : BitVec w) : List Byte := (List.range n).map fun j => byte v j

/-- BE(v): the n bytes of a value, most significant first (R42, G1; log 11). -/
def bigEndian {w : Nat} (n : Nat) (v : BitVec w) : List Byte := (List.range n).map fun j => byte v (n - 1 - j)

/-- The integer a byte sequence denotes, given the bytes least significant first: the pattern m of 8n bits read as
unsigned or as two's complement; 0 for the empty sequence (R225). -/
def bytesVal (isUnsigned : Bool) (qs : List Byte) : Int := val (!isUnsigned) (BitVec.ofNat (8 * qs.length) (bytesNat qs))

/-- The width k of a kind; none for the codes 14 and 15 (R201; log 12). -/
def kindBits : Kind → Option Nat
  | .u8 | .i8 => some 8
  | .u16 | .i16 => some 16
  | .u32 | .i32 => some 32
  | .u64 | .i64 => some 64
  | .u128 | .i128 => some 128
  | .u256 | .i256 => some 256
  | .u512 | .i512 => some 512
  | .none14 | .none15 => none

/-- The signedness Sk of a kind (R201). -/
def kindSigned : Kind → Bool
  | .i8 | .i16 | .i32 | .i64 | .i128 | .i256 | .i512 => true
  | .u8 | .u16 | .u32 | .u64 | .u128 | .u256 | .u512 | .none14 | .none15 => false

end Sys2Proof.Machine
end

