-- ==== Sys2Proof/Machine/Flags.lean ====
section
/-! DEFINITION. Every flag and every overflow condition of the spec: C (10_state.md rule R29), ORD (R30, R191), and the
tests of the checked policy as the operation rules write them (R102, R104, R121, R140). -/

namespace Sys2Proof.Machine

/-- The carry out of an addition of bit patterns: u(a) + u(b) >= 2^W (R29, R102). -/
def carryOut {n : Nat} (a b : BitVec n) : Bool := decide (pow2 n ≤ uval a + uval b)

/-- The borrow out of a subtraction of bit patterns: u(a) < u(b) (R29, R104). -/
def borrowOut {n : Nat} (a b : BitVec n) : Bool := decide (uval a < uval b)

/-- The checked test of ADD on the result r: unsigned, the carry; signed, operands of one sign and a result of the
other (R102, R242). -/
def addOverflows {n : Nat} (signed : Bool) (a b r : BitVec n) : Bool :=
  if signed then sign a == sign b && sign r != sign a else carryOut a b

/-- The checked test of SUB on the result r: unsigned, the borrow; signed, operands of different signs and a result
whose sign is not the left operand's (R104, R242). -/
def subOverflows {n : Nat} (signed : Bool) (a b r : BitVec n) : Bool :=
  if signed then sign a != sign b && sign r != sign a else borrowOut a b

/-- Most negative value by minus one: S = 1, a = MIN, b = 1_W (R140, R141). -/
def minByNegOne {n : Nat} (signed : Bool) (a b : BitVec n) : Bool :=
  signed && a == bv n (minVal true n) && b == bv n (-1)

/-- ORD of two values: 0 equal, 1 less, 2 greater (R30, R191). -/
def ordering (x y : Int) : OrdCode := if x = y then 0 else if x < y then 1 else 2

/-- The ERR field of an error response (R241). -/
def errorCode : ErrorKind → ErrCode
  | .overflow => 1
  | .divideByZero => 2
  | .formatError => 3
  | .unsupportedConversion => 4
  | .illegalRequest => 5

/-- The ERR field of a response: 0 in a value response (R27, R241). -/
def responseCode : Response → ErrCode
  | .value _ => 0
  | .error k => errorCode k

end Sys2Proof.Machine
end

