-- ==== Sys2Proof/Machine/Ops.lean ====
section
/-! DEFINITION. The operations on the state that every meaning shares: taking the oldest request and giving its response
(10_state.md rule R27, 20_memory.md rule R51), raising an error (60_exceptions.md rules R240, R250, R251), presenting a
request (R25), the reset event (R271). -/

namespace Sys2Proof.Machine

/-- The state after the oldest request in flight is given the response `r`: that request is no longer in flight, `r` is
the last response given, and nothing else changes (R20, R27, R51). -/
def State.respond (s : State) (r : Response) : State where
  inFlight := s.inFlight.tail
  responses := s.responses ++ [r]

/-- One transaction: the response to the oldest request in flight is a function of that request alone (R20, R50, R275).
With no request in flight there is nothing to answer (U2; log 2). -/
def transact (s : State) (response : Request → Response) : Host.Outcome State Fault Refusal :=
  match s.inFlight with
  | [] => .fault .noRequest
  | q :: _ => .next (s.respond (response q))

/-- RAISING AN ERROR, the one shared operation: the response is the error kind and nothing else; no state is saved, no
mode changes, control goes nowhere (R11, R15, R240, R247, R250). There is nothing to return from: the next request is
answered as after a value response (R251). -/
def raise (k : ErrorKind) : Response := .error k

/-- The value response with R := r and every other field zero (R15, R27, R28). -/
def okR {n : Nat} (r : BitVec n) : Response := .value { r := port r }

/-- The value response with R := r and C := c (R15, R29). -/
def okRC {n : Nat} (r : BitVec n) (c : Bool) : Response := .value { r := port r, c := c }

/-- The value response with R := r and RH := h (R15, R27). -/
def okRRH {n : Nat} (r h : BitVec n) : Response := .value { r := port r, rh := port h }

/-- The value response with ORD := o, R and RH zero (R15, R30, R191). -/
def okOrd (o : OrdCode) : Response := .value { ord := o }

/-- The value response with R := r and T := 1, a codec operation that succeeds (R15, R31). -/
def okTrue (r : Port) : Response := .value { r := r, t := true }

/-- The value response of a codec operation that returns false: T = 0, R = 0 (R31, R224, R252). -/
def okFalse : Response := .value {}

/-- The response to an illegal command word, whatever A and B hold (R66, R246; log 6). -/
def answerIllegal (s : State) : Host.Outcome State Fault Refusal := transact s fun _ => raise .illegalRequest

/-- The command word of the oldest request in flight: where a step reads its instruction. The unit fetches nothing; the
word comes with the request (R22, R25, R54). -/
def commandWord (s : State) : Option CmdWord := s.inFlight.head?.map Request.cmd

/-- A requester presents a request: it is the youngest in flight (R25, R51). -/
def State.present (s : State) (q : Request) : State := { s with inFlight := s.inFlight ++ [q] }

/-- The reset event: what is in flight gets no response; responses already given are the requester's (R271; log 8). -/
def State.resetEvent (s : State) : State := { s with inFlight := [] }

/-- The oldest request with the command word `w`; a new one with A = B = 0 where none is in flight (log 3). -/
def placeCommand (w : CmdWord) : List Request → List Request
  | [] => [{ cmd := w, a := 0, b := 0 }]
  | q :: rest => { q with cmd := w } :: rest

end Sys2Proof.Machine
end

