-- ==== Sys2Proof/Machine/AddSub.lean ====
section
/-! DEFINITION. The add/sub engine: ADD, SUB, NEG, INC, DEC, wrapping and checked (41_add_sub.md rules R100 to R108). -/

namespace Sys2Proof.Machine

/-- ADD of two patterns: r = bv(W, u(a) + u(b)), C the final carry; checked, OverflowError by R102's test. -/
def addResponse (checked : Bool) (ty : Ty) (a b : BitVec ty.bits) : Response :=
  let r := bv ty.bits (uval a + uval b)
  if checked && addOverflows ty.signed a b r then raise .overflow else okRC r (carryOut a b)

/-- SUB of two patterns: r = bv(W, u(a) - u(b)), C the final borrow; checked, OverflowError by R104's test. -/
def subResponse (checked : Bool) (ty : Ty) (a b : BitVec ty.bits) : Response :=
  let r := bv ty.bits (uval a - uval b)
  if checked && subOverflows ty.signed a b r then raise .overflow else okRC r (borrowOut a b)

/-- ADD, wrapping (R102). -/
def execAdd (ty : Ty) (s : State) : Host.Outcome State Fault Refusal :=
  transact s fun q => addResponse false ty (operandA ty q) (operandB ty q)

/-- ADD, checked (R102). -/
def execAddC (ty : Ty) (s : State) : Host.Outcome State Fault Refusal :=
  transact s fun q => addResponse true ty (operandA ty q) (operandB ty q)

/-- SUB, wrapping (R104). -/
def execSub (ty : Ty) (s : State) : Host.Outcome State Fault Refusal :=
  transact s fun q => subResponse false ty (operandA ty q) (operandB ty q)

/-- SUB, checked (R104). -/
def execSubC (ty : Ty) (s : State) : Host.Outcome State Fault Refusal :=
  transact s fun q => subResponse true ty (operandA ty q) (operandB ty q)

/-- NEG, wrapping: SUB with left operand 0 and right operand a; B is ignored (R106). -/
def execNeg (ty : Ty) (s : State) : Host.Outcome State Fault Refusal :=
  transact s fun q => subResponse false ty 0 (operandA ty q)

/-- NEG, checked (R106). -/
def execNegC (ty : Ty) (s : State) : Host.Outcome State Fault Refusal :=
  transact s fun q => subResponse true ty 0 (operandA ty q)

/-- INC, wrapping: ADD with b = 1; B is ignored (R107). -/
def execInc (ty : Ty) (s : State) : Host.Outcome State Fault Refusal :=
  transact s fun q => addResponse false ty (operandA ty q) (bv ty.bits 1)

/-- INC, checked (R107). -/
def execIncC (ty : Ty) (s : State) : Host.Outcome State Fault Refusal :=
  transact s fun q => addResponse true ty (operandA ty q) (bv ty.bits 1)

/-- DEC, wrapping: SUB with b = 1; B is ignored (R108). -/
def execDec (ty : Ty) (s : State) : Host.Outcome State Fault Refusal :=
  transact s fun q => subResponse false ty (operandA ty q) (bv ty.bits 1)

/-- DEC, checked (R108). -/
def execDecC (ty : Ty) (s : State) : Host.Outcome State Fault Refusal :=
  transact s fun q => subResponse true ty (operandA ty q) (bv ty.bits 1)

end Sys2Proof.Machine
end

