-- ==== Sys2Proof/Machine/Bitwise.lean ====
section
/-! DEFINITION. The logic array and the shifter: AND, OR, XOR, NOT (44_bitwise_shift_count.md rules R160 to R164), SHL,
SHR, SHRL, ROL, ROR (R165 to R171). No errors, no policy, no flags. -/

namespace Sys2Proof.Machine

/-- A pattern shifted left by n, n below its width: bv(W, u(a) * 2^n) (R167). -/
def shiftLeft {w : Nat} (a : BitVec w) (n : Nat) : BitVec w := bv w (uval a * pow2 n)

/-- A pattern shifted right by n with zero fill: bv(W, floor(u(a) / 2^n)) (R169). -/
def shiftRightLogical {w : Nat} (a : BitVec w) (n : Nat) : BitVec w := bv w (Int.fdiv (uval a) (pow2 n))

/-- A pattern shifted right by n with sign fill: bv(W, floor(s(a) / 2^n)) (R168). -/
def shiftRightArithmetic {w : Nat} (a : BitVec w) (n : Nat) : BitVec w := bv w (Int.fdiv (sval a) (pow2 n))

/-- Rotate left: a pair of opposite shifts ORed, the right one logical, the opposite amount (W - n) mod W (R170, D34). -/
def rotateLeft {w : Nat} (a : BitVec w) (n : Nat) : BitVec w := shiftLeft a n ||| shiftRightLogical a ((w - n) % w)

/-- Rotate right, the mirror image (R171). -/
def rotateRight {w : Nat} (a : BitVec w) (n : Nat) : BitVec w := shiftRightLogical a n ||| shiftLeft a ((w - n) % w)

/-- AND (R161). -/
def execAnd (ty : Ty) (s : State) : Host.Outcome State Fault Refusal :=
  transact s fun q => okR (operandA ty q &&& operandB ty q)

/-- OR (R162). -/
def execOr (ty : Ty) (s : State) : Host.Outcome State Fault Refusal :=
  transact s fun q => okR (operandA ty q ||| operandB ty q)

/-- XOR (R163). -/
def execXor (ty : Ty) (s : State) : Host.Outcome State Fault Refusal :=
  transact s fun q => okR (operandA ty q ^^^ operandB ty q)

/-- NOT, at width W, not at the port's width (R164). -/
def execNot (ty : Ty) (s : State) : Host.Outcome State Fault Refusal :=
  transact s fun q => okR (~~~(operandA ty q))

/-- SHL (R167). -/
def execShl (ty : Ty) (s : State) : Host.Outcome State Fault Refusal :=
  transact s fun q => okR (shiftLeft (operandA ty q) (amount ty q))

/-- SHR: arithmetic on a signed type, logical on an unsigned type (R168, D10). -/
def execShr (ty : Ty) (s : State) : Host.Outcome State Fault Refusal :=
  transact s fun q =>
    if ty.signed then okR (shiftRightArithmetic (operandA ty q) (amount ty q))
    else okR (shiftRightLogical (operandA ty q) (amount ty q))

/-- SHRL: logical on every type (R169). -/
def execShrl (ty : Ty) (s : State) : Host.Outcome State Fault Refusal :=
  transact s fun q => okR (shiftRightLogical (operandA ty q) (amount ty q))

/-- ROL (R170). -/
def execRol (ty : Ty) (s : State) : Host.Outcome State Fault Refusal :=
  transact s fun q => okR (rotateLeft (operandA ty q) (amount ty q))

/-- ROR (R171). -/
def execRor (ty : Ty) (s : State) : Host.Outcome State Fault Refusal :=
  transact s fun q => okR (rotateRight (operandA ty q) (amount ty q))

end Sys2Proof.Machine
end

