-- ==== Sys2Proof/Machine/Codec.lean ====
section
/-! DEFINITION. The byte codec: WRBE, WRLE, RDBE, RDLE (47_codec.md rules R220 to R229). A false outcome is a value
response with T = 0 and R = 0 (R31, R252). -/

namespace Sys2Proof.Machine

/-- A write: the bytes when the capacity is at least W/8, else false and no byte (R221, R224). -/
def writeResponse (ty : Ty) (q : Request) (bytes : List Byte) : Response :=
  if ty.width.bytes ≤ byteCount q then okTrue (bytesPort bytes) else okFalse

/-- A read of the integer the source denotes: true and the value when it fits the type, else false (R225). -/
def readValueResponse (ty : Ty) (x : Int) : Response :=
  if fits ty.signed ty.bits x then okTrue (port (bv ty.bits x)) else okFalse

/-- The source bytes of a read, first byte first: the low n lanes of A, n = u(B) (R226). -/
def sourceBytes (q : Request) : List Byte := portBytes (byteCount q) q.a

/-- A big-endian read; a length a port cannot carry is an illegal request (R226, R227). -/
def rdbeResponse (ty : Ty) (isUnsigned : Bool) (q : Request) : Response :=
  if Config.portBytes < byteCount q then raise .illegalRequest
  else readValueResponse ty (bytesVal isUnsigned (sourceBytes q).reverse)

/-- A little-endian read (R226, R228). -/
def rdleResponse (ty : Ty) (isUnsigned : Bool) (q : Request) : Response :=
  if Config.portBytes < byteCount q then raise .illegalRequest
  else readValueResponse ty (bytesVal isUnsigned (sourceBytes q))

/-- WRBE (R222). -/
def execWrbe (ty : Ty) (s : State) : Host.Outcome State Fault Refusal :=
  transact s fun q => writeResponse ty q (bigEndian ty.width.bytes (operandA ty q))

/-- WRLE (R223). -/
def execWrle (ty : Ty) (s : State) : Host.Outcome State Fault Refusal :=
  transact s fun q => writeResponse ty q (littleEndian ty.width.bytes (operandA ty q))

/-- RDBE (R227). -/
def execRdbe (ty : Ty) (isUnsigned : Bool) (s : State) : Host.Outcome State Fault Refusal :=
  transact s (rdbeResponse ty isUnsigned)

/-- RDLE (R228). -/
def execRdle (ty : Ty) (isUnsigned : Bool) (s : State) : Host.Outcome State Fault Refusal :=
  transact s (rdleResponse ty isUnsigned)

end Sys2Proof.Machine
end

