-- ==== Sys2Proof/Machine/Compare.lean ====
section
/-! DEFINITION. The comparison unit: CMP (45_comparison.md rules R190 to R193). -/

namespace Sys2Proof.Machine

/-- CMP: the ordering of val(S, a) and val(S, b) (R191). -/
def execCmp (ty : Ty) (s : State) : Host.Outcome State Fault Refusal :=
  transact s fun q => okOrd (ordering (val ty.signed (operandA ty q)) (val ty.signed (operandB ty q)))

end Sys2Proof.Machine
end

