-- ==== Sys2Proof/Machine/Composition.lean ====
section
/-! DEFINITION. Limb composition: CAT, UPR, LWR (40_limb_composition.md rules R91 to R93). -/

namespace Sys2Proof.Machine

/-- CAT: A[H-1:0] above B[H-1:0] (R91). -/
def execCat (ty : Ty) (s : State) : Host.Outcome State Fault Refusal :=
  transact s fun q => okR (halfA ty q ++ halfB ty q)

/-- UPR: the upper half, zero-extended (R92). -/
def execUpr (ty : Ty) (s : State) : Host.Outcome State Fault Refusal :=
  transact s fun q => okR (upperHalf ty (operandA ty q))

/-- LWR: the lower half, zero-extended (R93). -/
def execLwr (ty : Ty) (s : State) : Host.Outcome State Fault Refusal :=
  transact s fun q => okR (lowerHalf ty (operandA ty q))

end Sys2Proof.Machine
end

