-- ==== Sys2Proof/Machine/Convert.lean ====
section
/-! DEFINITION. The conversion matrix, integer kinds: CVTTO, CVTFROM under the three policies (46_conversion.md rules R200
to R206). -/

namespace Sys2Proof.Machine

/-- conv(x, Sd, kd, POL) (R202). -/
def convert (pol : Policy) (signed : Bool) (k : Nat) (x : Int) : Except ErrorKind (BitVec k) :=
  match pol with
  | .wrapping => .ok (bv k x)
  | .checked => if fits signed k x then .ok (bv k x) else .error .overflow
  | .saturating =>
    if x < minVal signed k then .ok (bv k (minVal signed k))
    else if maxVal signed k < x then .ok (bv k (maxVal signed k))
    else .ok (bv k x)

/-- A conversion's response: the converted value zero-extended, or the error (R205, R206). -/
def convertResponse (pol : Policy) (signed : Bool) (k : Nat) (x : Int) : Response :=
  match convert pol signed k x with
  | .ok r => okR r
  | .error e => raise e

/-- CVTTO: from the type to the kind; a kind with no mapping fails before the value is looked at (R203, R205). -/
def cvttoResponse (pol : Policy) (ty : Ty) (kind : Kind) (q : Request) : Response :=
  match kindBits kind with
  | none => raise .unsupportedConversion
  | some k => convertResponse pol (kindSigned kind) k (val ty.signed (operandA ty q))

/-- CVTFROM: from the low k bits of A, read as the kind, to the type (R203, R206). -/
def cvtfromResponse (pol : Policy) (ty : Ty) (kind : Kind) (q : Request) : Response :=
  match kindBits kind with
  | none => raise .unsupportedConversion
  | some k => convertResponse pol ty.signed ty.bits (val (kindSigned kind) (sourceA k q))

/-- CVTTO, truncating (R205). -/
def execCvtto (ty : Ty) (kind : Kind) (s : State) : Host.Outcome State Fault Refusal :=
  transact s (cvttoResponse .wrapping ty kind)

/-- CVTTO, checked (R205). -/
def execCvttoC (ty : Ty) (kind : Kind) (s : State) : Host.Outcome State Fault Refusal :=
  transact s (cvttoResponse .checked ty kind)

/-- CVTTO, saturating (R205). -/
def execCvttoSat (ty : Ty) (kind : Kind) (s : State) : Host.Outcome State Fault Refusal :=
  transact s (cvttoResponse .saturating ty kind)

/-- CVTFROM, truncating (R206). -/
def execCvtfrom (ty : Ty) (kind : Kind) (s : State) : Host.Outcome State Fault Refusal :=
  transact s (cvtfromResponse .wrapping ty kind)

/-- CVTFROM, checked (R206). -/
def execCvtfromC (ty : Ty) (kind : Kind) (s : State) : Host.Outcome State Fault Refusal :=
  transact s (cvtfromResponse .checked ty kind)

/-- CVTFROM, saturating (R206). -/
def execCvtfromSat (ty : Ty) (kind : Kind) (s : State) : Host.Outcome State Fault Refusal :=
  transact s (cvtfromResponse .saturating ty kind)

end Sys2Proof.Machine
end

