-- ==== Sys2Proof/Machine/Count.lean ====
section
/-! DEFINITION. The count units: LZC, TZC, POPC (44_bitwise_shift_count.md rules R173 to R175). -/

namespace Sys2Proof.Machine

/-- The zero bits above the most significant one bit among the low k bits; k when those are all zero. -/
def zerosBelow {w : Nat} (a : BitVec w) : Nat → Nat
  | 0 => 0
  | k + 1 => if a.getLsbD k then 0 else zerosBelow a k + 1

/-- lzc(W, a) (R173, D16). -/
def leadingZeros {w : Nat} (a : BitVec w) : Nat := zerosBelow a w

/-- The zero bits below the least significant one bit among the k bits from bit i up; k when those are all zero. -/
def zerosFrom {w : Nat} (a : BitVec w) : Nat → Nat → Nat
  | _, 0 => 0
  | i, k + 1 => if a.getLsbD i then 0 else zerosFrom a (i + 1) k + 1

/-- tzc(W, a) (R174, D16). -/
def trailingZeros {w : Nat} (a : BitVec w) : Nat := zerosFrom a 0 w

/-- The one bits among the low k bits. -/
def onesBelow {w : Nat} (a : BitVec w) : Nat → Nat
  | 0 => 0
  | k + 1 => onesBelow a k + (a.getLsbD k).toNat

/-- popc(W, a), the number of one bits (R175, G6, C7; log 13). -/
def populationCount {w : Nat} (a : BitVec w) : Nat := onesBelow a w

/-- A count on the result port: bv(512, n) (R173). -/
def okCount (n : Nat) : Response := okR (BitVec.ofNat 512 n)

/-- LZC (R173). -/
def execLzc (ty : Ty) (s : State) : Host.Outcome State Fault Refusal :=
  transact s fun q => okCount (leadingZeros (operandA ty q))

/-- TZC (R174). -/
def execTzc (ty : Ty) (s : State) : Host.Outcome State Fault Refusal :=
  transact s fun q => okCount (trailingZeros (operandA ty q))

/-- POPC (R175). -/
def execPopc (ty : Ty) (s : State) : Host.Outcome State Fault Refusal :=
  transact s fun q => okCount (populationCount (operandA ty q))

end Sys2Proof.Machine
end

