-- ==== Sys2Proof/Machine/Divide.lean ====
section
/-! DEFINITION. The divide engine: DIV, REM, DIVREM, each with POL 0 and 1 (43_divide.md rules R135 to R143). Quotient and
remainder are defined on integers; no path is selected (R150, D31). -/

namespace Sys2Proof.Machine

/-- Which operation asks for the pair (R140). -/
inductive DivOp where
  | div
  | rem
  | divrem
  deriving DecidableEq, Repr

/-- What MIN by minus one gives: OverflowError for DIV and DIVREM (R141), and for REM what the parameter REM_MIN_NEG1
says (R143). -/
def minByNegOneError (op : DivOp) : Option ErrorKind :=
  match op with
  | .div => some .overflow
  | .divrem => some .overflow
  | .rem =>
    match Config.remMinNeg1 with
    | .overflow => some .overflow
    | .zero => none

/-- The error checks of divpair, the zero divisor first (R140, R141). -/
def divError (op : DivOp) (ty : Ty) (a b : BitVec ty.bits) : Option ErrorKind :=
  if b = 0 then some .divideByZero
  else if minByNegOne ty.signed a b then minByNegOneError op
  else none

/-- divpair (R140): an error, or the pair (q, r) of R136. For REM of MIN by minus one with the parameter at `zero` the
remainder is 0 and REM does not use the quotient. -/
def divPair (op : DivOp) (ty : Ty) (a b : BitVec ty.bits) : Except ErrorKind (Int × Int) :=
  match divError op ty a b with
  | some k => .error k
  | none =>
    .ok (truncDiv (val ty.signed a) (val ty.signed b), truncRem (val ty.signed a) (val ty.signed b))

/-- DIV: the quotient (R137). -/
def divResponse (ty : Ty) (q : Request) : Response :=
  match divPair .div ty (operandA ty q) (operandB ty q) with
  | .error k => raise k
  | .ok (x, _) => okR (bv ty.bits x)

/-- REM: the remainder (R138). -/
def remResponse (ty : Ty) (q : Request) : Response :=
  match divPair .rem ty (operandA ty q) (operandB ty q) with
  | .error k => raise k
  | .ok (_, y) => okR (bv ty.bits y)

/-- DIVREM: the quotient on R, the remainder on RH (R139). -/
def divremResponse (ty : Ty) (q : Request) : Response :=
  match divPair .divrem ty (operandA ty q) (operandB ty q) with
  | .error k => raise k
  | .ok (x, y) => okRRH (bv ty.bits x) (bv ty.bits y)

/-- DIV, POL = 0 (R137). -/
def execDiv (ty : Ty) (s : State) : Host.Outcome State Fault Refusal := transact s (divResponse ty)

/-- DIV, POL = 1: the same response as POL = 0 (R137, R142). -/
def execDivC (ty : Ty) (s : State) : Host.Outcome State Fault Refusal := transact s (divResponse ty)

/-- REM, POL = 0 (R138). -/
def execRem (ty : Ty) (s : State) : Host.Outcome State Fault Refusal := transact s (remResponse ty)

/-- REM, POL = 1: the same response as POL = 0 (R138, R142). -/
def execRemC (ty : Ty) (s : State) : Host.Outcome State Fault Refusal := transact s (remResponse ty)

/-- DIVREM, POL = 0 (R139). -/
def execDivrem (ty : Ty) (s : State) : Host.Outcome State Fault Refusal := transact s (divremResponse ty)

/-- DIVREM, POL = 1: the same response as POL = 0 (R139, R142). -/
def execDivremC (ty : Ty) (s : State) : Host.Outcome State Fault Refusal := transact s (divremResponse ty)

end Sys2Proof.Machine
end

