-- ==== Sys2Proof/Machine/Multiply.lean ====
section
/-! DEFINITION. The multiply engine: MUL, wrapping and checked, and BMUL (42_multiply.md rules R120 to R123). The product
is defined on integers; no path or algorithm is selected (R127, D31). -/

namespace Sys2Proof.Machine

/-- The exact product of the operands read by S (R121, R123). -/
def exactProduct (ty : Ty) (q : Request) : Int := val ty.signed (operandA ty q) * val ty.signed (operandB ty q)

/-- The double-width product P = bv(2W, p) (R122, R123). -/
def wideProduct (ty : Ty) (q : Request) : BitVec (2 * ty.bits) := bv (2 * ty.bits) (exactProduct ty q)

/-- MUL, wrapping (R121). -/
def execMul (ty : Ty) (s : State) : Host.Outcome State Fault Refusal :=
  transact s fun q => okR (bv ty.bits (exactProduct ty q))

/-- MUL, checked: OverflowError unless the exact product fits (R121, R122). -/
def execMulC (ty : Ty) (s : State) : Host.Outcome State Fault Refusal :=
  transact s fun q =>
    if fits ty.signed ty.bits (exactProduct ty q) then okR (bv ty.bits (exactProduct ty q)) else raise .overflow

/-- BMUL: R the low half and RH the high half of the double-width product (R123). -/
def execBmul (ty : Ty) (s : State) : Host.Outcome State Fault Refusal :=
  transact s fun q =>
    okRRH ((wideProduct ty q).extractLsb' 0 ty.bits) ((wideProduct ty q).extractLsb' ty.bits ty.bits)

end Sys2Proof.Machine
end

