-- ==== Sys2Proof/Machine/Dispatch.lean ====
section
/-! DEFINITION. exec: one arm per instruction of the opcode table, in its order, each one direct call of its meaning. -/

namespace Sys2Proof.Machine

def exec (i : Instr) (s : State) : Host.Outcome State Fault Refusal :=
  match i with
  | .cat ty => Sys2Proof.Machine.execCat ty s
  | .upr ty => Sys2Proof.Machine.execUpr ty s
  | .lwr ty => Sys2Proof.Machine.execLwr ty s
  | .add ty => Sys2Proof.Machine.execAdd ty s
  | .addC ty => Sys2Proof.Machine.execAddC ty s
  | .sub ty => Sys2Proof.Machine.execSub ty s
  | .subC ty => Sys2Proof.Machine.execSubC ty s
  | .neg ty => Sys2Proof.Machine.execNeg ty s
  | .negC ty => Sys2Proof.Machine.execNegC ty s
  | .inc ty => Sys2Proof.Machine.execInc ty s
  | .incC ty => Sys2Proof.Machine.execIncC ty s
  | .dec ty => Sys2Proof.Machine.execDec ty s
  | .decC ty => Sys2Proof.Machine.execDecC ty s
  | .mul ty => Sys2Proof.Machine.execMul ty s
  | .mulC ty => Sys2Proof.Machine.execMulC ty s
  | .bmul ty => Sys2Proof.Machine.execBmul ty s
  | .div ty => Sys2Proof.Machine.execDiv ty s
  | .divC ty => Sys2Proof.Machine.execDivC ty s
  | .rem ty => Sys2Proof.Machine.execRem ty s
  | .remC ty => Sys2Proof.Machine.execRemC ty s
  | .divrem ty => Sys2Proof.Machine.execDivrem ty s
  | .divremC ty => Sys2Proof.Machine.execDivremC ty s
  | .and ty => Sys2Proof.Machine.execAnd ty s
  | .or ty => Sys2Proof.Machine.execOr ty s
  | .xor ty => Sys2Proof.Machine.execXor ty s
  | .not ty => Sys2Proof.Machine.execNot ty s
  | .shl ty => Sys2Proof.Machine.execShl ty s
  | .shr ty => Sys2Proof.Machine.execShr ty s
  | .shrl ty => Sys2Proof.Machine.execShrl ty s
  | .rol ty => Sys2Proof.Machine.execRol ty s
  | .ror ty => Sys2Proof.Machine.execRor ty s
  | .lzc ty => Sys2Proof.Machine.execLzc ty s
  | .tzc ty => Sys2Proof.Machine.execTzc ty s
  | .popc ty => Sys2Proof.Machine.execPopc ty s
  | .cmp ty => Sys2Proof.Machine.execCmp ty s
  | .cvtto ty kind => Sys2Proof.Machine.execCvtto ty kind s
  | .cvttoC ty kind => Sys2Proof.Machine.execCvttoC ty kind s
  | .cvttoSat ty kind => Sys2Proof.Machine.execCvttoSat ty kind s
  | .cvtfrom ty kind => Sys2Proof.Machine.execCvtfrom ty kind s
  | .cvtfromC ty kind => Sys2Proof.Machine.execCvtfromC ty kind s
  | .cvtfromSat ty kind => Sys2Proof.Machine.execCvtfromSat ty kind s
  | .wrbe ty => Sys2Proof.Machine.execWrbe ty s
  | .wrle ty => Sys2Proof.Machine.execWrle ty s
  | .rdbe ty isUnsigned => Sys2Proof.Machine.execRdbe ty isUnsigned s
  | .rdle ty isUnsigned => Sys2Proof.Machine.execRdle ty isUnsigned s

end Sys2Proof.Machine
end

