-- ==== Sys2Proof/Machine/Step.lean ====
section
/-! DEFINITION. One step of the unit: one transaction (70_reset_and_hazards.md rule R275). -/

namespace Sys2Proof.Machine

/-- One step answers the oldest request in flight: a legal command word runs its instruction, an illegal one is answered
IllegalRequest (R66, R69, R248); the command word is looked at before any operand. With no request in flight there is
no transaction (U2; log 2). -/
def step (s : State) : Host.Outcome State Fault Refusal :=
  match commandWord s with
  | none => .fault .noRequest
  | some w =>
    match decode w with
    | .ok i => exec i s
    | .error _ => answerIllegal s

/-- `s` with the command word `w` (its bits from `nbits` up zero) on the oldest request, where the next step reads it;
where no request is in flight, on a request with A = B = 0 (log 3). -/
def State.withFetchWord (s : State) (nbits w : Nat) : State :=
  { s with inFlight := placeCommand (BitVec.ofNat 16 (w % 2 ^ nbits)) s.inFlight }

end Sys2Proof.Machine
end

