-- ==== Sys2Proof/Machine/Limbs.lean ====
section
/-! DEFINITION. The internal structure the spec describes, limb by limb: ripple carry and borrow (41_add_sub.md rules R101,
R103), the paths of the multiplier and the checked criterion (42_multiply.md rules R122, R124 to R126), the magnitude step and the
paths of the divider (43_divide.md rules R145 to R149, R151), the barrel structure and the recursions of the counts
(44_bitwise_shift_count.md rules R172, R176), lexicographic order (45_comparison.md rule R192). No meaning calls these: no
result depends on a path (R12, R127, R150; log 14). Statements say that each equals the arithmetic meaning. -/

namespace Sys2Proof.Machine

/-- The limbs of a value, limb 0 first (R40). -/
def limbsOf {w : Nat} (count : Nat) (v : BitVec w) : List Limb := (List.range count).map fun i => limb v i

/-- The number some limbs denote, limb 0 first: the sum of u(l_i) * 2^(64 i) (R40). -/
def limbsNat : List Limb → Nat
  | [] => 0
  | l :: ls => l.toNat + 2 ^ 64 * limbsNat ls

/-- Carry propagation over limbs; a limb's carry is `result < leftOperand` (R101). -/
def rippleAdd : List Limb → List Limb → Bool → List Limb × Bool
  | a :: as, b :: bs, c =>
    let t := a + b
    let c1 := decide (t < a)
    let r := t + (if c then 1 else 0)
    let c2 := decide (r < t)
    let (rs, final) := rippleAdd as bs (c1 || c2)
    (r :: rs, final)
  | _, _, c => ([], c)

/-- Borrow propagation over limbs; a limb's borrow is `result > leftOperand` (R103). -/
def rippleSub : List Limb → List Limb → Bool → List Limb × Bool
  | a :: as, b :: bs, w =>
    let t := a - b
    let w1 := decide (a < t)
    let r := t - (if w then 1 else 0)
    let w2 := decide (t < r)
    let (rs, final) := rippleSub as bs (w1 || w2)
    (r :: rs, final)
  | _, _, w => ([], w)

/-- One row of schoolbook multiplication: x times the limbs of y, added to a window of as many limbs, the carry limb
last (R126). -/
def mulRow (x : Limb) : List Limb → List Limb → Nat → List Limb
  | y :: ys, z :: zs, k =>
    let t := x.toNat * y.toNat + z.toNat + k
    BitVec.ofNat 64 (t % 2 ^ 64) :: mulRow x ys zs (t / 2 ^ 64)
  | _, _, k => [BitVec.ofNat 64 k]

/-- Schoolbook multiplication: `window` is z[i .. i+n-1] before row i, all zero at the start (R126). -/
def schoolbookFrom : List Limb → List Limb → List Limb → List Limb
  | [], _, window => window
  | x :: xs, ys, window =>
    match mulRow x ys window 0 with
    | [] => []
    | z :: rest => z :: schoolbookFrom xs ys rest

/-- The product of two limb arrays, as many limbs as both have together (R126). -/
def schoolbook (xs ys : List Limb) : List Limb := schoolbookFrom xs ys (ys.map fun _ => 0)

/-- One pass over the limbs of an operand with a running carry limb, the other operand being one limb (R125). -/
def singleLimbMultiply (x : Limb) (ys : List Limb) : List Limb := mulRow x ys (ys.map fun _ => 0) 0

/-- The unsigned multiplier with D0's paths: native when both operands fit one limb (R124), one pass when one of them does
(R125), else schoolbook (R126). -/
def multiplyByPaths {w : Nat} (count : Nat) (a b : BitVec w) : Nat :=
  if a.toNat < 2 ^ 64 ∧ b.toNat < 2 ^ 64 then (limb a 0).toNat * (limb b 0).toNat
  else if a.toNat < 2 ^ 64 then limbsNat (singleLimbMultiply (limb a 0) (limbsOf count b))
  else if b.toNat < 2 ^ 64 then limbsNat (singleLimbMultiply (limb b 0) (limbsOf count a))
  else limbsNat (schoolbook (limbsOf count a) (limbsOf count b))

/-- The signed double-width product from the unsigned one: u(b) * 2^W subtracted when a is negative, u(a) * 2^W when b
is, modulo 2^(2W) (R126). -/
def signedFromUnsigned {w : Nat} (a b : BitVec w) (p : Int) : BitVec (2 * w) :=
  bv (2 * w) (p - (if sign a then uval b * pow2 w else 0) - (if sign b then uval a * pow2 w else 0))

/-- D0's checked criterion on the double-width product: unsigned, the high half is zero; signed, it is the sign extension
of the low half (R122). -/
def productFits (signed : Bool) {w : Nat} (p : BitVec (2 * w)) : Bool :=
  let lo := p.extractLsb' 0 w
  let hi := p.extractLsb' w w
  if signed then (if sign lo then hi == bv w (-1) else hi == 0) else hi == 0

/-- NEG of a pattern, wrapping (R106, R145). -/
def negate {w : Nat} (v : BitVec w) : BitVec w := bv w (0 - uval v)

/-- The magnitude of a signed pattern, read as unsigned (R145). -/
def magnitude {w : Nat} (v : BitVec w) : BitVec w := if sign v then negate v else v

/-- The signed double-width product from the unsigned one of the magnitudes, negated when the signs differ (R126; a zero
product is its own negation, D15). -/
def signedFromMagnitudes {w : Nat} (a b : BitVec w) (p : Nat) : BitVec (2 * w) :=
  bv (2 * w) (if sign a != sign b then -(p : Int) else (p : Int))

/-- The sign step on the unsigned quotient and remainder of the magnitudes: the quotient by the XOR of the signs, the
remainder by the dividend's sign (R145). -/
def restoreSigns {w : Nat} (a b : BitVec w) (pair : Nat × Nat) : BitVec w × BitVec w :=
  let mq := BitVec.ofNat w pair.1
  let mr := BitVec.ofNat w pair.2
  (if sign a != sign b then negate mq else mq, if sign a then negate mr else mr)

/-- Short division by a divisor of one limb, the limbs of the dividend most significant first: the quotient's limbs and
the remainder (R146). -/
def shortDivide (d : Nat) : Nat → List Limb → List Limb × Nat
  | rem, [] => ([], rem)
  | rem, n :: ns =>
    let t := rem * 2 ^ 64 + n.toNat
    let (qs, last) := shortDivide d (t % d) ns
    (BitVec.ofNat 64 (t / d) :: qs, last)

/-- Restoring bit-serial division of the low i bits of ma, from a quotient and a remainder so far (R151). -/
def restoringFrom {w : Nat} (ma : BitVec w) (d : Nat) : Nat → Nat → Nat → Nat × Nat
  | 0, q, r => (q, r)
  | i + 1, q, r =>
    let r' := 2 * r + (ma.getLsbD i).toNat
    if d ≤ r' then restoringFrom ma d i (q + 2 ^ i) (r' - d) else restoringFrom ma d i q r'

/-- Restoring bit-serial division (R151). -/
def restoringDivide {w : Nat} (ma : BitVec w) (d : Nat) : Nat × Nat := restoringFrom ma d w 0 0

/-- The number of limbs up to and including the most significant nonzero one (R149). -/
def significantLimbs {w : Nat} (count : Nat) (v : BitVec w) : Nat := count - leadingZeros v / 64

/-- The Calculator on trimmed limb spans: quotient and remainder; its algorithm is opaque, the reference one stands for
it (R149, R151). -/
def calculatorDivide (ns ds : List Limb) : Nat × Nat :=
  restoringDivide (BitVec.ofNat (64 * ns.length) (limbsNat ns)) (limbsNat ds)

/-- The slow path: trim both operands, then the Calculator (R149). -/
def slowDivide {w : Nat} (count : Nat) (ma mb : BitVec w) : Nat × Nat :=
  calculatorDivide (limbsOf (significantLimbs count ma) ma) (limbsOf (significantLimbs count mb) mb)

/-- The dominance shortcut, and the slow path where it does not apply (R148, R149). -/
def dominanceOrSlow {w : Nat} (count : Nat) (ma mb : BitVec w) : Nat × Nat :=
  if ma.toNat < mb.toNat then (0, ma.toNat)
  else if ma.toNat = mb.toNat then (1, 0)
  else slowDivide count ma mb

/-- The unsigned divider with D0's paths, at width 128 * 2^h: short division for a one-limb divisor (R146), half-width
recursion when both fit the lower half (R147; it ends at 128 bits, N8), else dominance (R148), else the slow path
(R149). -/
def divideByPaths : (h : Nat) → BitVec (128 * 2 ^ h) → BitVec (128 * 2 ^ h) → Nat × Nat
  | h, ma, mb =>
    if mb.toNat < 2 ^ 64 then
      let (qs, r) := shortDivide mb.toNat 0 (limbsOf (2 * 2 ^ h) ma).reverse
      (limbsNat qs.reverse, r)
    else
      match h with
      | 0 => dominanceOrSlow 2 ma mb
      | h' + 1 =>
        if ma.toNat < 2 ^ (128 * 2 ^ h') ∧ mb.toNat < 2 ^ (128 * 2 ^ h') then
          divideByPaths h' (ma.setWidth _) (mb.setWidth _)
        else dominanceOrSlow (2 * 2 ^ (h' + 1)) ma mb

/-- Lexicographic order of limbs, most significant limb first: 0 equal, 1 less, 2 greater (R192). -/
def limbOrder : List Limb → List Limb → OrdCode
  | a :: as, b :: bs => if a < b then 1 else if b < a then 2 else limbOrder as bs
  | _, _ => 0

/-- Unsigned ordering of two values by limbs (R192). -/
def unsignedOrder {w : Nat} (count : Nat) (a b : BitVec w) : OrdCode :=
  limbOrder (limbsOf count a).reverse (limbsOf count b).reverse

/-- Signed ordering: the sign bits first, then the unsigned order (R192). -/
def signedOrder {w : Nat} (count : Nat) (a b : BitVec w) : OrdCode :=
  if sign a && !sign b then 1
  else if !sign a && sign b then 2
  else unsignedOrder count a b

/-- The limbs of a left shift by n = 64 k + t: whole limbs moved by k, neighbours combined when t is not 0 (R172). -/
def barrelLeft (count n : Nat) (ls : List Limb) : List Limb :=
  let k := n / 64
  let t := n % 64
  let at_ (i : Nat) : Limb := ls.getD i 0
  (List.range count).map fun i =>
    if t = 0 then (if k ≤ i then at_ (i - k) else 0)
    else (if k ≤ i then at_ (i - k) <<< t else 0) ||| (if k + 1 ≤ i then at_ (i - k - 1) >>> (64 - t) else 0)

/-- The limbs of a right shift by n = 64 k + t, with the given fill limb above the top (R172). -/
def barrelRight (fill : Limb) (count n : Nat) (ls : List Limb) : List Limb :=
  let k := n / 64
  let t := n % 64
  let at_ (i : Nat) : Limb := ls.getD i fill
  (List.range count).map fun i =>
    if t = 0 then at_ (i + k) else (at_ (i + k) >>> t) ||| (at_ (i + k + 1) <<< (64 - t))

/-- The leading zero count by halves; the word-level count at 64 bits (R176). -/
def lzcByHalves : (k : Nat) → BitVec (64 * 2 ^ k) → Nat
  | 0, v => leadingZeros v
  | k + 1, v =>
    let upper : BitVec (64 * 2 ^ k) := v.extractLsb' (64 * 2 ^ k) (64 * 2 ^ k)
    if upper = 0 then 64 * 2 ^ k + lzcByHalves k (v.extractLsb' 0 (64 * 2 ^ k)) else lzcByHalves k upper

/-- The trailing zero count by halves (R176, N10). -/
def tzcByHalves : (k : Nat) → BitVec (64 * 2 ^ k) → Nat
  | 0, v => trailingZeros v
  | k + 1, v =>
    let lower : BitVec (64 * 2 ^ k) := v.extractLsb' 0 (64 * 2 ^ k)
    if lower = 0 then 64 * 2 ^ k + tzcByHalves k (v.extractLsb' (64 * 2 ^ k) (64 * 2 ^ k)) else tzcByHalves k lower

/-- The population count by halves: both always count (R176, N10). -/
def popcByHalves : (k : Nat) → BitVec (64 * 2 ^ k) → Nat
  | 0, v => populationCount v
  | k + 1, v =>
    popcByHalves k (v.extractLsb' 0 (64 * 2 ^ k)) + popcByHalves k (v.extractLsb' (64 * 2 ^ k) (64 * 2 ^ k))

end Sys2Proof.Machine
end

