-- ==== Sys2Proof/Machine/Requester.lean ====
section
/-! DEFINITION. A requester running a list of request lines on the unit (10_state.md rule R22, 30_encoding.md rule R70,
60_exceptions.md rule R251). The requester is outside the unit: it builds each request from numbers and from fields of the
responses it has, and stops after the first error response. -/

namespace Sys2Proof.Machine

/-- The responses a requester has, each under the label of its line. -/
abbrev Labelled := List (Nat × Response)

/-- The value response under a label; none for an error response, which has no field to name (R27, R251, U1). DESIGN CHOICE
(log 17): where two lines have the label, the earlier line's response is taken; R70 does not say. -/
def labelledValue (env : Labelled) (label : Nat) : Option Value :=
  match env.lookup label with
  | some (.value v) => some v
  | some (.error _) => none
  | none => none

/-- The port value of an operand (R70). -/
def operandValue (ty : Ty) (env : Labelled) : Operand → Option Port
  | .num n => some (bv 512 n)
  | .max => some (port (bv ty.bits (maxVal ty.signed ty.bits)))
  | .min => some (port (bv ty.bits (minVal ty.signed ty.bits)))
  | .fieldR l => (labelledValue env l).map Value.r
  | .fieldRH l => (labelledValue env l).map Value.rh

/-- The request a line makes; none where it names a response that is not there (R251). -/
def lineRequest (env : Labelled) (l : Line) : Option Request :=
  match operandValue l.instr.ty env l.opA, operandValue l.instr.ty env l.opB with
  | some a, some b => some { cmd := encode l.instr, a := a, b := b }
  | _, _ => none

/-- One line: present the request, let the unit answer it, take the response (R22, R51). None where the line cannot be
made or the unit stops. -/
def runLine (s : State) (env : Labelled) (l : Line) : Option (State × Response) :=
  match lineRequest env l with
  | none => none
  | some q =>
    match step (s.present q) with
    | .next t => t.responses.getLast?.map fun r => (t, r)
    | .fault _ => none
    | .refused _ => none

/-- The lines in order, on a unit with nothing in flight; after the first error response no later line is made (R70,
R251). -/
def runLines (s : State) (env : Labelled) : Program → State × Labelled
  | [] => (s, env)
  | l :: ls =>
    match runLine s env l with
    | none => (s, env)
    | some (t, .value v) => runLines t (env ++ [(l.label, .value v)]) ls
    | some (t, .error k) => (t, env ++ [(l.label, .error k)])

/-- A program from reset: the labelled responses (R22). -/
def runProgram (p : Program) : Labelled := (runLines State.reset [] p).2

end Sys2Proof.Machine
end

