-- ==== Sys2Proof/Safety.lean ====
section
/-! DEFINITION. The terms statements use: what it is for an instruction, or the unit, to answer a request; which bits a
request's answer may depend on (10_state.md rules R26, R32), which fields it may define (R28 to R32) and which errors it
may be (60_exceptions.md rules R242 to R246). -/

namespace Sys2Proof.Machine

/-- Instruction `i` answers the request `q` with the response `r`: in EVERY state whose oldest request is `q`, exec gives
a NEXT state, in which that request is no longer in flight, `r` has been given, and nothing else has changed. -/
def Responds (i : Instr) (q : Request) (r : Response) : Prop :=
  ∀ (rest : List Request) (given : List Response),
    exec i { inFlight := q :: rest, responses := given } = .next { inFlight := rest, responses := given ++ [r] }

/-- `i` answers `q` with a value response (R27). -/
abbrev Returns (i : Instr) (q : Request) (v : Value) : Prop := Responds i q (.value v)

/-- `i` answers `q` with an error response (R27, R240). -/
abbrev Raises (i : Instr) (q : Request) (k : ErrorKind) : Prop := Responds i q (.error k)

/-- The unit answers the request `q` with `r` in one step, whatever else is in flight and whatever was answered before. -/
def UnitResponds (q : Request) (r : Response) : Prop :=
  ∀ (rest : List Request) (given : List Response),
    step { inFlight := q :: rest, responses := given } = .next { inFlight := rest, responses := given ++ [r] }

/-- A request with the ports `a` and `b` and any command word: a meaning does not look at it (R20, R61). -/
def ports (a b : Port) : Request := { cmd := 0, a := a, b := b }

/-- RH, C, ORD and T are zero: the operation defines R only (R32). -/
def OnlyR (v : Value) : Prop := v.rh = 0 ∧ v.c = false ∧ v.ord = 0 ∧ v.t = false

/-- ORD and T and RH are zero: the operation defines R and C only (R32). -/
def OnlyRC (v : Value) : Prop := v.rh = 0 ∧ v.ord = 0 ∧ v.t = false

/-- What S and WSEL add to a command word: 64 * WSEL + 128 * S (R61). -/
def typeBits (ty : Ty) : Nat := (if ty.width = .w512 then 64 else 0) + (if ty.signed then 128 else 0)

/-- The most negative pattern MIN of a type's width, `1` above W - 1 zeros (43_divide.md). -/
def minPattern (ty : Ty) : BitVec ty.bits := BitVec.ofNat ty.bits (2 ^ (ty.bits - 1))

/-- A response the unit may give: ORD is never 3; C, ORD and T belong to different operations and come with the other
fields R32 leaves zero; FormatError is never raised (R27, R29 to R32, R244). -/
def responseLegal : Response → Bool
  | .value v =>
    v.ord != 3 && (!v.c || (v.rh == 0 && v.ord == 0 && !v.t)) &&
      (v.ord == 0 || (v.r == 0 && v.rh == 0 && !v.c && !v.t)) && (!v.t || (v.rh == 0 && !v.c && v.ord == 0))
  | .error k => k != .formatError

/-- Every response given is one the unit may give. -/
def State.Legal (s : State) : Prop := ∀ r ∈ s.responses, responseLegal r = true

/-- Which errors an instruction can raise (R32's last column, R242 to R246). -/
def canRaise : Instr → ErrorKind → Bool
  | .addC _, .overflow | .subC _, .overflow | .negC _, .overflow | .incC _, .overflow | .decC _, .overflow => true
  | .mulC _, .overflow => true
  | .div ty, .overflow | .divC ty, .overflow | .divrem ty, .overflow | .divremC ty, .overflow => ty.signed
  | .rem ty, .overflow | .remC ty, .overflow => ty.signed && Config.remMinNeg1 == .overflow
  | .cvttoC _ _, .overflow | .cvtfromC _ _, .overflow => true
  | .div _, .divideByZero | .divC _, .divideByZero | .rem _, .divideByZero | .remC _, .divideByZero => true
  | .divrem _, .divideByZero | .divremC _, .divideByZero => true
  | .cvtto _ kind, .unsupportedConversion | .cvttoC _ kind, .unsupportedConversion
  | .cvttoSat _ kind, .unsupportedConversion | .cvtfrom _ kind, .unsupportedConversion
  | .cvtfromC _ kind, .unsupportedConversion | .cvtfromSat _ kind, .unsupportedConversion =>
    kind == .none14 || kind == .none15
  | .rdbe _ _, .illegalRequest | .rdle _ _, .illegalRequest => true
  | _, _ => false

/-- log2(W): the bits of port B a shift or rotate amount takes (R68, R166). -/
def amountBits (ty : Ty) : Nat := match ty.width with
  | .w256 => 8
  | .w512 => 9

/-- How many low bits of port A an instruction reads, the byte count being `n` (R26, R32's column "reads A"). -/
def bitsReadA (n : Nat) : Instr → Nat
  | .cat ty => ty.width.halfBits
  | .cvtfrom _ kind | .cvtfromC _ kind | .cvtfromSat _ kind => (kindBits kind).getD 0
  | .rdbe _ _ | .rdle _ _ => min 512 (8 * n)
  | i => i.ty.bits

/-- How many low bits of port B an instruction reads (R26, R32's column "reads B"). -/
def bitsReadB : Instr → Nat
  | .cat ty => ty.width.halfBits
  | .add ty | .addC ty | .sub ty | .subC ty | .mul ty | .mulC ty | .bmul ty => ty.bits
  | .div ty | .divC ty | .rem ty | .remC ty | .divrem ty | .divremC ty => ty.bits
  | .and ty | .or ty | .xor ty | .cmp ty => ty.bits
  | .shl ty | .shr ty | .shrl ty | .rol ty | .ror ty => amountBits ty
  | .wrbe _ | .wrle _ | .rdbe _ _ | .rdle _ _ => 512
  | _ => 0

/-- How many low bits of R an instruction's result has (R28, R32's column "R"); 0 for CMP. -/
def resultBits : Instr → Nat
  | .upr ty | .lwr ty => ty.width.halfBits
  | .lzc ty | .tzc ty | .popc ty => amountBits ty + 1
  | .cmp _ => 0
  | .cvtto _ kind | .cvttoC _ kind | .cvttoSat _ kind => (kindBits kind).getD 0
  | i => i.ty.bits

/-- The operations whose response does not depend on S (R32's column "S matters": no, or only when checked). -/
def signBlind : List (Ty → Instr) :=
  [.cat, .upr, .lwr, .add, .sub, .neg, .inc, .dec, .mul, .and, .or, .xor, .not, .shl, .shrl, .rol, .ror] ++
    [.lzc, .tzc, .popc, .wrbe, .wrle]

end Sys2Proof.Machine
end

