-- ==== Sys2Proof/Certificates/Slice0/Obligations.lean ====
section
/-! DEFINITION. The statements for the provers. `Responds i q r` (Safety.lean) says that exec i gives a NEXT state in every
state whose oldest request is q, with that request answered by r and nothing else changed: a statement whose conclusion is
`Returns` or `Raises` is a completion statement and carries its whole frame. A response is read from the state's record of
responses, which is the model's representation (log 1). Where a docstring names a log entry or a mark of the spec
(derived, decision D<n>, general knowledge G<n>), the statement rests on it and its basis is 'derived'. -/

open Sys2Proof Sys2Proof.Machine

/-! ### Decoding, encoding, the step -/

/-- R72's worked encodings decode to the operations of their lines, and its illegal words are rejected. -/
def Obligations.WorkedEncodingsDecode : Prop :=
  decode 0x0008 = .ok (.add .u256) ∧ decode 0x0108 = .ok (.addC .u256) ∧ decode 0x01C8 = .ok (.addC .s512) ∧
  decode 0x0011 = .ok (.bmul .u256) ∧ decode 0x00D8 = .ok (.div .s512) ∧ decode 0x009A = .ok (.divrem .s256) ∧
  decode 0x0024 = .ok (.shl .u256) ∧ decode 0x00E5 = .ok (.shr .s512) ∧ decode 0x00B0 = .ok (.cmp .s256) ∧
  decode 0x1EB4 = .ok (.cvttoSat .s256 .i64) ∧ decode 0x0575 = .ok (.cvtfromC .u512 .i8) ∧
  decode 0x00BA = .ok (.rdbe .s256 false) ∧ decode 0x04BA = .ok (.rdbe .s256 true) ∧
  decode 0x0078 = .ok (.wrbe .u512) ∧ decode 0x0000 = .error .unassignedOpcode ∧
  decode 0x0120 = .error .policyNotAllowed ∧ decode 0x0208 = .error .policyNotAllowed ∧
  decode 0x4008 = .error .reservedBits

/-- Decoding the command word of any instruction gives it back, with every type, kind and extension. -/
def Obligations.DecodeOfEncode : Prop := ∀ i : Instr, decode (encode i) = .ok i

/-- A word that decodes is the command word of what it decodes to: no bit of a legal word is dropped. -/
def Obligations.EncodeOfDecode : Prop := ∀ (w : CmdWord) (i : Instr), decode w = .ok i → encode i = w

/-- R66: a word with any of the five conditions is answered IllegalRequest, whatever A and B hold; a word with none of
them runs the instruction it decodes to; KIND 14 and 15 on a conversion are legal and raise UnsupportedConversionError. -/
def Obligations.IllegalCommandAnswersIllegalRequest : Prop :=
  ∀ q : Request,
    ((fieldsOf q.cmd).wellFormed = false → UnitResponds q (.error .illegalRequest)) ∧
    ((fieldsOf q.cmd).wellFormed = true → ∃ i, decode q.cmd = .ok i ∧
      ∀ rest given, step ⟨q :: rest, given⟩ = exec i ⟨q :: rest, given⟩) ∧
    ((fieldsOf q.cmd).wellFormed = true → (fieldsOf q.cmd).opc.toNat ∈ conversionOpcodes →
      14 ≤ (fieldsOf q.cmd).kind.toNat → UnitResponds q (.error .unsupportedConversion))

/-- R69: the decoder checks RSV, then OPC, then POL, then KIND, and rejects by the first check that fails; only a word that
passes every check decodes. -/
def Obligations.DecoderChecksInOrder : Prop :=
  ∀ w : CmdWord,
    (decode w = .error .reservedBits ↔ (fieldsOf w).rsvOk = false) ∧
    (decode w = .error .unassignedOpcode ↔ (fieldsOf w).rsvOk = true ∧ (fieldsOf w).opcOk = false) ∧
    (decode w = .error .policyNotAllowed ↔
      (fieldsOf w).rsvOk = true ∧ (fieldsOf w).opcOk = true ∧ (fieldsOf w).polOk = false) ∧
    (decode w = .error .kindNotZero ↔ (fieldsOf w).rsvOk = true ∧ (fieldsOf w).opcOk = true ∧
      (fieldsOf w).polOk = true ∧ (fieldsOf w).kindOk = false) ∧
    (decode w = .error .readKindReserved ↔ (fieldsOf w).rsvOk = true ∧ (fieldsOf w).opcOk = true ∧
      (fieldsOf w).polOk = true ∧ (fieldsOf w).kindOk = true ∧ (fieldsOf w).readKindOk = false) ∧
    ((∃ i, decode w = .ok i) ↔ (fieldsOf w).wellFormed = true)

/-- R72's last paragraph: a word is legal exactly when it matches a row of the opcode table, and then one row only. -/
def Obligations.LegalWordsMatchOneTableRow : Prop :=
  ∀ w : CmdWord,
    ((∃ i, decode w = .ok i) ↔ (opcodeTable.filter fun row => row.covers w).length = 1) ∧
    (opcodeTable.filter fun row => row.covers w).length ≤ 1

/-- A step runs the instruction that the command word of the oldest request decodes to, and adds nothing to it. -/
def Obligations.StepRunsDecodedInstruction : Prop :=
  ∀ (q : Request) (rest : List Request) (given : List Response) (i : Instr), decode q.cmd = .ok i →
    step ⟨q :: rest, given⟩ = exec i ⟨q :: rest, given⟩

/-- The model's choice (log 2): with no request in flight a step stops, and every instruction's meaning stops. -/
def Obligations.NoRequestNoTransaction : Prop :=
  ∀ (given : List Response) (i : Instr),
    step ⟨[], given⟩ = .fault .noRequest ∧ exec i ⟨[], given⟩ = .fault .noRequest

/-- R20: every request, whatever its 16 + 512 + 512 bits, gets exactly one response in one step, and the response
is the same whatever else is in flight and whatever was answered before. -/
def Obligations.EveryRequestIsAnsweredFromItself : Prop := ∀ q : Request, ∃ r : Response, UnitResponds q r

/-- R50 and R51: any requests in flight are all answered, in the order they were made, each with the response it gets
alone. The order of the responses is decision D23; one queue stands for one requester (log 7). -/
def Obligations.RequestsAnsweredInOrder : Prop :=
  ∀ (requests : List Request) (given : List Response), ∃ rs : List Response,
    List.Forall₂ (fun q r => step ⟨[q], []⟩ = .next ⟨[], [r]⟩) requests rs ∧
    Sys2Proof.core.run requests.length (⟨requests, given⟩ : State) = .next (⟨[], given ++ rs⟩ : State)

/-- Every step keeps the invariant that every response given is one the unit may give (R27, R29 to R32, R244). The record of
responses is the model's own (log 1). -/
def Obligations.StepKeepsResponsesLegal : Prop :=
  ∀ s t : State, s.Legal → step s = .next t → t.Legal

/-- The invariant holds after reset. -/
def Obligations.ResetResponsesLegal : Prop := State.reset.Legal

/-- R270, R271: after reset, and after a reset event, nothing is in flight; what was in flight gets no response; the next
request is answered as at any other time. That responses already given stay is the model's reading (log 8). -/
def Obligations.ResetDropsTransactionsInFlight : Prop :=
  State.reset.inFlight = [] ∧ ∀ s : State, s.resetEvent.inFlight = [] ∧ s.resetEvent.responses = s.responses ∧
    ∀ (q : Request) (r : Response), UnitResponds q r →
      step (s.resetEvent.present q) = .next ⟨[], s.responses ++ [r]⟩

/-- R241: the error codes; 0 marks a value response and only that; 6 and 7 are not used. -/
def Obligations.ErrorCodesAsListed : Prop :=
  errorCode .overflow = 1 ∧ errorCode .divideByZero = 2 ∧ errorCode .formatError = 3 ∧
  errorCode .unsupportedConversion = 4 ∧ errorCode .illegalRequest = 5 ∧
  ∀ r : Response, (responseCode r = 0 ↔ ∃ v, r = .value v) ∧ responseCode r ≠ 6 ∧ responseCode r ≠ 7

/-- R242 to R246: an instruction raises no error but those the spec lists for it; no wrapping or saturating operation
raises OverflowError, and nothing raises FormatError. -/
def Obligations.OnlyListedErrorsAreRaised : Prop :=
  ∀ (i : Instr) (q : Request) (k : ErrorKind), Raises i q k → canRaise i k = true

/-! ### Ports -/

/-- R26, R32, U5: the response depends only on the bits of A and B the operation reads. -/
def Obligations.IgnoredPortBitsDoNotMatter : Prop :=
  ∀ (i : Instr) (q q' : Request),
    q.a.setWidth (bitsReadA (byteCount q) i) = q'.a.setWidth (bitsReadA (byteCount q) i) →
    q.b.setWidth (bitsReadB i) = q'.b.setWidth (bitsReadB i) →
    ∀ r : Response, Responds i q r → Responds i q' r

/-- R28: the bits of R above the result's width are zero, and those of RH above W. -/
def Obligations.ResultsAreZeroExtended : Prop :=
  ∀ (i : Instr) (q : Request) (v : Value), Returns i q v →
    ∀ j : Nat, (resultBits i ≤ j → v.r.getLsbD j = false) ∧ (i.ty.bits ≤ j → v.rh.getLsbD j = false)

/-- R63, decision D8: where signedness does not matter both values of S give the same response. -/
def Obligations.SignBitDoesNotMatter : Prop :=
  ∀ op ∈ signBlind, ∀ (w : Width) (q : Request), ∃ r : Response, Responds (op ⟨false, w⟩) q r ∧ Responds (op ⟨true, w⟩) q r

/-! ### Limb composition -/

/-- R91: CAT puts A[H-1:0] above B[H-1:0]. -/
def Obligations.CatPlacesHalves : Prop :=
  ∀ (ty : Ty) (q : Request), (encode (.cat ty)).toNat = 0x001 + typeBits ty ∧
    ∃ v, Returns (.cat ty) q v ∧ OnlyR v ∧ ∀ j : Nat, v.r.getLsbD j =
      if j < ty.width.halfBits then q.b.getLsbD j
      else if j < ty.bits then q.a.getLsbD (j - ty.width.halfBits) else false

/-- R92, R93: UPR and LWR give the halves of a, zero-extended for both values of S. -/
def Obligations.HalfViewsZeroExtend : Prop :=
  ∀ (ty : Ty) (q : Request),
    (encode (.upr ty)).toNat = 0x002 + typeBits ty ∧ (encode (.lwr ty)).toNat = 0x003 + typeBits ty ∧
    (∃ v, Returns (.upr ty) q v ∧ OnlyR v ∧ ∀ j : Nat, v.r.getLsbD j =
      if j < ty.width.halfBits then q.a.getLsbD (j + ty.width.halfBits) else false) ∧
    (∃ v, Returns (.lwr ty) q v ∧ OnlyR v ∧ ∀ j : Nat, v.r.getLsbD j =
      if j < ty.width.halfBits then q.a.getLsbD j else false)

/-- R94, a law the spec derives: the halves of a value put together give it back, and the halves of a composed value are
its parts. -/
def Obligations.CatAndHalvesAreInverse : Prop :=
  ∀ (ty : Ty) (x y : Port),
    (∃ u l, Returns (.upr ty) (ports x 0) u ∧ Returns (.lwr ty) (ports x 0) l ∧
      Returns (.cat ty) (ports u.r l.r) { r := port (x.setWidth ty.bits) }) ∧
    (∃ c, Returns (.cat ty) (ports x y) c ∧
      Returns (.upr ty) (ports c.r 0) { r := port (x.setWidth ty.width.halfBits) } ∧
      Returns (.lwr ty) (ports c.r 0) { r := port (y.setWidth ty.width.halfBits) })

/-! ### Add/sub engine -/

/-- R102: ADD gives the sum modulo 2^W with C the final carry; the checked policy fails on a carry (unsigned) or when the
operands share a sign and the result's differs (signed), and else gives the same response. -/
def Obligations.AddFollowsItsRule : Prop :=
  ∀ (ty : Ty) (q : Request),
    (encode (.add ty)).toNat = 0x008 + typeBits ty ∧ (encode (.addC ty)).toNat = 0x108 + typeBits ty ∧
    ∃ v, Returns (.add ty) q v ∧ OnlyRC v ∧ v.r.toNat < 2 ^ ty.bits ∧
      v.r.toNat + (if v.c then 2 ^ ty.bits else 0) = (operandA ty q).toNat + (operandB ty q).toNat ∧
      (if (if ty.signed then (operandA ty q).msb = (operandB ty q).msb ∧
              v.r.getLsbD (ty.bits - 1) ≠ (operandA ty q).msb
            else v.c = true)
        then Raises (.addC ty) q .overflow else Returns (.addC ty) q v)

/-- R104: SUB gives the difference modulo 2^W with C the final borrow; the checked policy fails on a borrow (unsigned) or
when the signs differ and the result's is not the left operand's (signed), and else gives the same response. The checked
test is derived in the spec and its decision D13. -/
def Obligations.SubFollowsItsRule : Prop :=
  ∀ (ty : Ty) (q : Request),
    (encode (.sub ty)).toNat = 0x009 + typeBits ty ∧ (encode (.subC ty)).toNat = 0x109 + typeBits ty ∧
    ∃ v, Returns (.sub ty) q v ∧ OnlyRC v ∧ v.r.toNat < 2 ^ ty.bits ∧
      v.r.toNat + (operandB ty q).toNat = (operandA ty q).toNat + (if v.c then 2 ^ ty.bits else 0) ∧
      (if (if ty.signed then (operandA ty q).msb ≠ (operandB ty q).msb ∧
              v.r.getLsbD (ty.bits - 1) ≠ (operandA ty q).msb
            else v.c = true)
        then Raises (.subC ty) q .overflow else Returns (.subC ty) q v)

/-- R106: NEG gives 0 - a with C set for every nonzero a; checked, it fails for every nonzero unsigned value and for the
most negative signed value. The unsigned failure is the spec's decision D13. -/
def Obligations.NegFollowsItsRule : Prop :=
  ∀ (ty : Ty) (q : Request),
    (encode (.neg ty)).toNat = 0x00A + typeBits ty ∧ (encode (.negC ty)).toNat = 0x10A + typeBits ty ∧
    ∃ v, Returns (.neg ty) q v ∧ OnlyRC v ∧ v.r = port (~~~(operandA ty q) + 1) ∧
      (v.c = true ↔ operandA ty q ≠ 0) ∧
      (if (if ty.signed then operandA ty q = minPattern ty else operandA ty q ≠ 0)
        then Raises (.negC ty) q .overflow else Returns (.negC ty) q v)

/-- R107: INC is ADD of one; C only for all ones; checked, it fails for the type's greatest value only. -/
def Obligations.IncFollowsItsRule : Prop :=
  ∀ (ty : Ty) (q : Request),
    (encode (.inc ty)).toNat = 0x00B + typeBits ty ∧ (encode (.incC ty)).toNat = 0x10B + typeBits ty ∧
    ∃ v, Returns (.inc ty) q v ∧ Returns (.add ty) { q with b := 1 } v ∧ OnlyRC v ∧
      v.r = port (operandA ty q + 1) ∧ (v.c = true ↔ operandA ty q = BitVec.allOnes ty.bits) ∧
      (if (if ty.signed then operandA ty q = ~~~(minPattern ty) else operandA ty q = BitVec.allOnes ty.bits)
        then Raises (.incC ty) q .overflow else Returns (.incC ty) q v)

/-- R108: DEC is SUB of one; C only for zero; checked, it fails for the type's least value only. -/
def Obligations.DecFollowsItsRule : Prop :=
  ∀ (ty : Ty) (q : Request),
    (encode (.dec ty)).toNat = 0x00C + typeBits ty ∧ (encode (.decC ty)).toNat = 0x10C + typeBits ty ∧
    ∃ v, Returns (.dec ty) q v ∧ Returns (.sub ty) { q with b := 1 } v ∧ OnlyRC v ∧
      v.r = port (operandA ty q - 1) ∧ (v.c = true ↔ operandA ty q = 0) ∧
      (if (if ty.signed then operandA ty q = minPattern ty else operandA ty q = 0)
        then Raises (.decC ty) q .overflow else Returns (.decC ty) q v)

/-- R105, derived in the spec: each checked operation of the family fails exactly when the exact result is not representable, and
else gives the response of the wrapping one. -/
def Obligations.CheckedFailsExactlyWhenUnrepresentable : Prop :=
  ∀ (ty : Ty) (q : Request),
    ∀ row ∈ [(Instr.add ty, Instr.addC ty, val ty.signed (operandA ty q) + val ty.signed (operandB ty q)),
        (.sub ty, .subC ty, val ty.signed (operandA ty q) - val ty.signed (operandB ty q)),
        (.neg ty, .negC ty, 0 - val ty.signed (operandA ty q)),
        (.inc ty, .incC ty, val ty.signed (operandA ty q) + 1),
        (.dec ty, .decC ty, val ty.signed (operandA ty q) - 1)],
      if fits ty.signed ty.bits row.2.2 then ∃ v, Returns row.1 q v ∧ Returns row.2.1 q v
      else Raises row.2.1 q .overflow

/-- R101, R103: the ripple of carries over the limbs gives ADD's result and its C, the ripple of borrows SUB's. The second
limb test of each is derived in the spec; the limb functions are the model's (log 14). -/
def Obligations.CarryAndBorrowRippleOverLimbs : Prop :=
  ∀ (ty : Ty) (q : Request),
    (∃ v, Returns (.add ty) q v ∧
      limbsNat (rippleAdd (limbsOf ty.width.limbs (operandA ty q)) (limbsOf ty.width.limbs (operandB ty q)) false).1 =
        v.r.toNat ∧
      (rippleAdd (limbsOf ty.width.limbs (operandA ty q)) (limbsOf ty.width.limbs (operandB ty q)) false).2 = v.c) ∧
    (∃ v, Returns (.sub ty) q v ∧
      limbsNat (rippleSub (limbsOf ty.width.limbs (operandA ty q)) (limbsOf ty.width.limbs (operandB ty q)) false).1 =
        v.r.toNat ∧
      (rippleSub (limbsOf ty.width.limbs (operandA ty q)) (limbsOf ty.width.limbs (operandB ty q)) false).2 = v.c)

/-- R109: wrapping addition commutes and associates, SUB is ADD of NEG, NEG undoes itself, and checked addition commutes.
The laws of SUB and NEG are derived in the spec. -/
def Obligations.AdditionLaws : Prop :=
  ∀ (ty : Ty) (x y z : Port),
    (∃ v, Returns (.add ty) (ports x y) v ∧ Returns (.add ty) (ports y x) v) ∧
    (∃ r, Responds (.addC ty) (ports x y) r ∧ Responds (.addC ty) (ports y x) r) ∧
    (∃ xy yz v w, Returns (.add ty) (ports x y) xy ∧ Returns (.add ty) (ports y z) yz ∧
      Returns (.add ty) (ports xy.r z) v ∧ Returns (.add ty) (ports x yz.r) w ∧ v.r = w.r) ∧
    (∃ d n v, Returns (.sub ty) (ports x y) d ∧ Returns (.neg ty) (ports y 0) n ∧
      Returns (.add ty) (ports x n.r) v ∧ d.r = v.r) ∧
    (∃ n v, Returns (.neg ty) (ports x 0) n ∧ Returns (.neg ty) (ports n.r 0) v ∧ v.r = port (x.setWidth ty.bits))

/-! ### Multiply engine -/

/-- R121: MUL gives the low W bits of the product, the same for both values of S; checked, it fails exactly when the exact
product does not fit the type. -/
def Obligations.MulFollowsItsRule : Prop :=
  ∀ (ty : Ty) (q : Request),
    (encode (.mul ty)).toNat = 0x010 + typeBits ty ∧ (encode (.mulC ty)).toNat = 0x110 + typeBits ty ∧
    ∃ v, Returns (.mul ty) q v ∧ OnlyR v ∧
      v.r.toNat = ((operandA ty q).toNat * (operandB ty q).toNat) % 2 ^ ty.bits ∧
      (if fits ty.signed ty.bits (val ty.signed (operandA ty q) * val ty.signed (operandB ty q))
        then Returns (.mulC ty) q v else Raises (.mulC ty) q .overflow)

/-- R122: the test on the two halves of the double-width product decides the checked multiply. That the second signed
condition adds nothing is derived in the spec (and D15); the function is the model's (log 14). -/
def Obligations.CheckedMulTestsTheHighHalf : Prop :=
  ∀ (ty : Ty) (q : Request),
    if productFits ty.signed (wideProduct ty q) then ∃ v, Returns (.mul ty) q v ∧ Returns (.mulC ty) q v
    else Raises (.mulC ty) q .overflow

/-- R123, R128: BMUL gives the whole product, unsigned or as a 2W-bit two's-complement number; its R is MUL's. -/
def Obligations.BmulGivesTheWholeProduct : Prop :=
  ∀ (ty : Ty) (q : Request), (encode (.bmul ty)).toNat = 0x011 + typeBits ty ∧
    ∃ v w, Returns (.bmul ty) q v ∧ Returns (.mul ty) q w ∧ v.r = w.r ∧
      v.r.toNat < 2 ^ ty.bits ∧ v.rh.toNat < 2 ^ ty.bits ∧ v.c = false ∧ v.ord = 0 ∧ v.t = false ∧
      (if ty.signed
        then (v.rh.setWidth ty.bits ++ v.r.setWidth ty.bits).toInt =
          (operandA ty q).toInt * (operandB ty q).toInt
        else v.rh.toNat * 2 ^ ty.bits + v.r.toNat = (operandA ty q).toNat * (operandB ty q).toNat)

/-- R124 to R126: schoolbook multiplication over the limbs gives the unsigned product, as the multiplier does whichever path
runs; the two subtractions, or the sign on the product of the magnitudes, give the signed one. The algorithm is the
spec's general knowledge G2 and the signed forms are derived in the spec; the functions are the model's (log 14). -/
def Obligations.EveryMultiplyPathGivesTheProduct : Prop :=
  ∀ (ty : Ty) (q : Request),
    limbsNat (schoolbook (limbsOf ty.width.limbs (operandA ty q)) (limbsOf ty.width.limbs (operandB ty q))) =
      (operandA ty q).toNat * (operandB ty q).toNat ∧
    multiplyByPaths ty.width.limbs (operandA ty q) (operandB ty q) = (operandA ty q).toNat * (operandB ty q).toNat ∧
    (ty.signed = true →
      signedFromUnsigned (operandA ty q) (operandB ty q) (uval (operandA ty q) * uval (operandB ty q)) =
        wideProduct ty q ∧
      signedFromMagnitudes (operandA ty q) (operandB ty q)
        ((magnitude (operandA ty q)).toNat * (magnitude (operandB ty q)).toNat) = wideProduct ty q)

/-! ### Divide engine -/

/-- R243: DivideByZeroError is raised by DIV, REM and DIVREM exactly when the divisor is zero, under both policies, on
every type, whatever the dividend, and by nothing else. -/
def Obligations.ZeroDivisorRaises : Prop :=
  ∀ (i : Instr) (q : Request), Raises i q .divideByZero ↔
    (∃ ty : Ty, i ∈ [Instr.div ty, .divC ty, .rem ty, .remC ty, .divrem ty, .divremC ty]) ∧ operandB i.ty q = 0

/-- R141, R143: signed MIN by minus one raises OverflowError in DIV and DIVREM under both policies; in REM it does what
the parameter REM_MIN_NEG1 says, whichever value that has (decisions D11 and D12, log 4). -/
def Obligations.MinByMinusOne : Prop :=
  ∀ (ty : Ty) (q : Request), ty.signed = true → operandA ty q = minPattern ty →
    operandB ty q = BitVec.allOnes ty.bits →
    (∀ i ∈ [Instr.div ty, .divC ty, .divrem ty, .divremC ty], Raises i q .overflow) ∧
    (∀ i ∈ [Instr.rem ty, .remC ty],
      (Config.remMinNeg1 = .overflow → Raises i q .overflow) ∧ (Config.remMinNeg1 = .zero → Returns i q {}))

/-- R136 to R139: on every other pair of operands with a nonzero divisor the quotient truncates toward zero, the
remainder is smaller than the divisor and zero or of the dividend's sign, both fit the type, and DIV, REM and DIVREM
return them under both policies. That both fit (R140) and that both policies agree (R142) the spec marks as derived; the
excluded pair is R141's and R143's (MinByMinusOne), the zero divisor R141's (ZeroDivisorRaises). -/
def Obligations.DivisionTruncatesTowardZero : Prop :=
  ∀ (ty : Ty) (q : Request), operandB ty q ≠ 0 →
    ¬(ty.signed = true ∧ operandA ty q = minPattern ty ∧ operandB ty q = BitVec.allOnes ty.bits) →
    ∃ x y : Int,
      val ty.signed (operandA ty q) = x * val ty.signed (operandB ty q) + y ∧
      y.natAbs < (val ty.signed (operandB ty q)).natAbs ∧
      (y = 0 ∨ y.sign = (val ty.signed (operandA ty q)).sign) ∧
      fits ty.signed ty.bits x = true ∧ fits ty.signed ty.bits y = true ∧
      (∀ i ∈ [Instr.div ty, .divC ty], Returns i q { r := port (bv ty.bits x) }) ∧
      (∀ i ∈ [Instr.rem ty, .remC ty], Returns i q { r := port (bv ty.bits y) }) ∧
      (∀ i ∈ [Instr.divrem ty, .divremC ty],
        Returns i q { r := port (bv ty.bits x), rh := port (bv ty.bits y) })

/-- R152, a law of the spec: whenever DIVREM gives a value, wrapping MUL of R by b plus RH is a. -/
def Obligations.DivisionIdentityHolds : Prop :=
  ∀ (ty : Ty) (x y : Port) (v : Value), Returns (.divrem ty) (ports x y) v →
    ∃ m w, Returns (.mul ty) (ports v.r y) m ∧ Returns (.add ty) (ports m.r v.rh) w ∧
      w.r = port (x.setWidth ty.bits)

/-- R145: unsigned division of the magnitudes and the sign step give the signed quotient and remainder. The functions are
the model's (log 14). -/
def Obligations.MagnitudeDivisionGivesSigned : Prop :=
  ∀ (ty : Ty) (q : Request) (v : Value), ty.signed = true → Returns (.divrem ty) q v →
    restoreSigns (operandA ty q) (operandB ty q)
      ((magnitude (operandA ty q)).toNat / (magnitude (operandB ty q)).toNat,
        (magnitude (operandA ty q)).toNat % (magnitude (operandB ty q)).toNat) =
      (v.r.setWidth ty.bits, v.rh.setWidth ty.bits)

/-- R146, R151: short division by one limb, limb by limb, and restoring division, bit by bit, give quotient and
remainder. Both algorithms are the spec's general knowledge G3; the functions are the model's (log 14). -/
def Obligations.ShortAndRestoringDivisionDivide : Prop :=
  (∀ (d : Nat) (ns : List Limb), 0 < d → d < 2 ^ 64 →
    limbsNat (shortDivide d 0 ns).1.reverse = limbsNat ns.reverse / d ∧
    (shortDivide d 0 ns).2 = limbsNat ns.reverse % d) ∧
  (∀ (w : Nat) (ma : BitVec w) (d : Nat), 0 < d → restoringDivide ma d = (ma.toNat / d, ma.toNat % d))

/-- R146 to R150: the divider with D0's paths gives quotient and remainder whichever path runs, at every width of the
recursion (256 bits is h = 1, 512 bits h = 2). The function is the model's (log 14). -/
def Obligations.EveryDividePathAgrees : Prop :=
  ∀ (h : Nat) (ma mb : BitVec (128 * 2 ^ h)), mb ≠ 0 →
    divideByPaths h ma mb = (ma.toNat / mb.toNat, ma.toNat % mb.toNat)

/-! ### Bitwise and shift engine -/

/-- R161 to R164: the logic array, bit by bit, at width W. -/
def Obligations.LogicIsBitByBit : Prop :=
  ∀ (ty : Ty) (q : Request),
    (encode (.and ty)).toNat = 0x020 + typeBits ty ∧ (encode (.or ty)).toNat = 0x021 + typeBits ty ∧
    (encode (.xor ty)).toNat = 0x022 + typeBits ty ∧ (encode (.not ty)).toNat = 0x023 + typeBits ty ∧
    (∃ v, Returns (.and ty) q v ∧ OnlyR v ∧
      ∀ j : Nat, v.r.getLsbD j = (decide (j < ty.bits) && (q.a.getLsbD j && q.b.getLsbD j))) ∧
    (∃ v, Returns (.or ty) q v ∧ OnlyR v ∧
      ∀ j : Nat, v.r.getLsbD j = (decide (j < ty.bits) && (q.a.getLsbD j || q.b.getLsbD j))) ∧
    (∃ v, Returns (.xor ty) q v ∧ OnlyR v ∧
      ∀ j : Nat, v.r.getLsbD j = (decide (j < ty.bits) && (q.a.getLsbD j != q.b.getLsbD j))) ∧
    (∃ v, Returns (.not ty) q v ∧ OnlyR v ∧
      ∀ j : Nat, v.r.getLsbD j = (decide (j < ty.bits) && !q.a.getLsbD j))

/-- R167: SHL, bit by bit, the amount modulo W. -/
def Obligations.ShiftLeftMovesBits : Prop :=
  ∀ (ty : Ty) (q : Request), (encode (.shl ty)).toNat = 0x024 + typeBits ty ∧
    ∃ v, Returns (.shl ty) q v ∧ OnlyR v ∧ ∀ j : Nat, v.r.getLsbD j =
      (decide (j < ty.bits) && decide (q.b.toNat % ty.bits ≤ j) && q.a.getLsbD (j - q.b.toNat % ty.bits))

/-- R168, R169: SHR fills with the sign on a signed type and with zeros on an unsigned one, SHRL always with zeros. -/
def Obligations.RightShiftsFill : Prop :=
  ∀ (ty : Ty) (q : Request),
    (encode (.shr ty)).toNat = 0x025 + typeBits ty ∧ (encode (.shrl ty)).toNat = 0x026 + typeBits ty ∧
    (∃ v, Returns (.shr ty) q v ∧ OnlyR v ∧ ∀ j : Nat, v.r.getLsbD j =
      if ty.bits ≤ j then false
      else if j + q.b.toNat % ty.bits < ty.bits then q.a.getLsbD (j + q.b.toNat % ty.bits)
      else ty.signed && q.a.getLsbD (ty.bits - 1)) ∧
    (∃ v, Returns (.shrl ty) q v ∧ OnlyR v ∧ ∀ j : Nat, v.r.getLsbD j =
      (decide (j + q.b.toNat % ty.bits < ty.bits) && q.a.getLsbD (j + q.b.toNat % ty.bits)))

/-- R170, R171: the rotates move every bit modulo W and lose none. -/
def Obligations.RotatesMoveBitsModuloW : Prop :=
  ∀ (ty : Ty) (q : Request),
    (encode (.rol ty)).toNat = 0x027 + typeBits ty ∧ (encode (.ror ty)).toNat = 0x028 + typeBits ty ∧
    (∃ v, Returns (.rol ty) q v ∧ OnlyR v ∧ ∀ j : Nat, v.r.getLsbD j =
      (decide (j < ty.bits) && q.a.getLsbD ((j + (ty.bits - q.b.toNat % ty.bits)) % ty.bits))) ∧
    (∃ v, Returns (.ror ty) q v ∧ OnlyR v ∧ ∀ j : Nat, v.r.getLsbD j =
      (decide (j < ty.bits) && q.a.getLsbD ((j + q.b.toNat % ty.bits) % ty.bits)))

/-- R172: the barrel structure, whole limbs and then neighbours combined, gives the three shifts. Derived in the spec; the
functions are the model's (log 14). -/
def Obligations.BarrelStructureShifts : Prop :=
  ∀ (ty : Ty) (q : Request),
    (∃ v, Returns (.shl ty) q v ∧
      limbsNat (barrelLeft ty.width.limbs (amount ty q) (limbsOf ty.width.limbs (operandA ty q))) = v.r.toNat) ∧
    (∃ v, Returns (.shrl ty) q v ∧
      limbsNat (barrelRight 0 ty.width.limbs (amount ty q) (limbsOf ty.width.limbs (operandA ty q))) = v.r.toNat) ∧
    (∃ v, Returns (.shr ty) q v ∧
      limbsNat (barrelRight (if ty.signed && sign (operandA ty q) then BitVec.allOnes 64 else 0) ty.width.limbs
        (amount ty q) (limbsOf ty.width.limbs (operandA ty q))) = v.r.toNat)

/-- R173, R174, R175: LZC from the largest one bit, TZC from the smallest, W for a zero operand; POPC the number of one
bits. The counts of a zero operand are the spec's decision D16 and the meaning of a population count its general knowledge
G6 (log 13). -/
def Obligations.CountsCountBits : Prop :=
  ∀ (ty : Ty) (q : Request),
    (encode (.lzc ty)).toNat = 0x029 + typeBits ty ∧ (encode (.tzc ty)).toNat = 0x02A + typeBits ty ∧
    (encode (.popc ty)).toNat = 0x02B + typeBits ty ∧
    (∃ v, Returns (.lzc ty) q v ∧ OnlyR v ∧ (operandA ty q = 0 → v.r.toNat = ty.bits) ∧
      ∀ j : Nat, (operandA ty q).getLsbD j = true → (∀ k : Nat, j < k → (operandA ty q).getLsbD k = false) →
        v.r.toNat = ty.bits - 1 - j) ∧
    (∃ v, Returns (.tzc ty) q v ∧ OnlyR v ∧ (operandA ty q = 0 → v.r.toNat = ty.bits) ∧
      ∀ j : Nat, (operandA ty q).getLsbD j = true → (∀ k : Nat, k < j → (operandA ty q).getLsbD k = false) →
        v.r.toNat = j) ∧
    (∃ v, Returns (.popc ty) q v ∧ OnlyR v ∧
      v.r.toNat = ((List.range ty.bits).filter fun j => (operandA ty q).getLsbD j).length)

/-- R176: the recursions on halves give the counts, at 64, 128, 256, 512 bits and on. The functions are the model's
(log 14); the count of a zero word is general knowledge G4 (log 13). -/
def Obligations.CountsRecurseOnHalves : Prop :=
  ∀ (k : Nat) (v : BitVec (64 * 2 ^ k)),
    lzcByHalves k v = leadingZeros v ∧ tzcByHalves k v = trailingZeros v ∧ popcByHalves k v = populationCount v

/-! ### Comparison -/

/-- R191, R193: ORD is 0 exactly for equal patterns, else 1 or 2 by the order of the values read by S. -/
def Obligations.CmpOrdersValues : Prop :=
  ∀ (ty : Ty) (q : Request), (encode (.cmp ty)).toNat = 0x030 + typeBits ty ∧
    ∃ v, Returns (.cmp ty) q v ∧ v.r = 0 ∧ v.rh = 0 ∧ v.c = false ∧ v.t = false ∧
      (v.ord = 0 ↔ operandA ty q = operandB ty q) ∧
      (v.ord = 1 ↔ val ty.signed (operandA ty q) < val ty.signed (operandB ty q)) ∧
      (v.ord = 2 ↔ val ty.signed (operandB ty q) < val ty.signed (operandA ty q)) ∧ v.ord ≠ 3

/-- R192: limbs compared most significant first, after the sign bits on a signed type, give ORD. The spec derives that this
is R191's order; the functions are the model's (log 14). -/
def Obligations.CmpIsLexicographic : Prop :=
  ∀ (ty : Ty) (q : Request), Returns (.cmp ty) q
    { ord := if ty.signed then signedOrder ty.width.limbs (operandA ty q) (operandB ty q)
        else unsignedOrder ty.width.limbs (operandA ty q) (operandB ty q) }

/-! ### Conversion matrix -/

/-- R202, R205: CVTTO under the three policies: UnsupportedConversionError for a kind with no mapping, else the value
truncated, clamped, or checked. The widths of the kinds 0 to 9 are the spec's general knowledge G5 (log 12). -/
def Obligations.CvttoFollowsItsRule : Prop :=
  ∀ (ty : Ty) (kind : Kind) (q : Request),
    (encode (.cvtto ty kind)).toNat = 0x034 + typeBits ty + 0x400 * kind.code.toNat ∧
    (encode (.cvttoC ty kind)).toNat = 0x134 + typeBits ty + 0x400 * kind.code.toNat ∧
    (encode (.cvttoSat ty kind)).toNat = 0x234 + typeBits ty + 0x400 * kind.code.toNat ∧
    match kindBits kind with
    | none => ∀ i ∈ [Instr.cvtto ty kind, .cvttoC ty kind, .cvttoSat ty kind], Raises i q .unsupportedConversion
    | some k =>
      Returns (.cvtto ty kind) q { r := port (bv k (val ty.signed (operandA ty q))) } ∧
      Returns (.cvttoSat ty kind) q
        { r := port (bv k (max (minVal (kindSigned kind) k)
            (min (maxVal (kindSigned kind) k) (val ty.signed (operandA ty q))))) } ∧
      (if fits (kindSigned kind) k (val ty.signed (operandA ty q))
        then Returns (.cvttoC ty kind) q { r := port (bv k (val ty.signed (operandA ty q))) }
        else Raises (.cvttoC ty kind) q .overflow)

/-- R202, R206: CVTFROM under the three policies, from the low k bits of A read as the kind. The widths of the kinds 0 to
9 are the spec's general knowledge G5 (log 12). -/
def Obligations.CvtfromFollowsItsRule : Prop :=
  ∀ (ty : Ty) (kind : Kind) (q : Request),
    (encode (.cvtfrom ty kind)).toNat = 0x035 + typeBits ty + 0x400 * kind.code.toNat ∧
    (encode (.cvtfromC ty kind)).toNat = 0x135 + typeBits ty + 0x400 * kind.code.toNat ∧
    (encode (.cvtfromSat ty kind)).toNat = 0x235 + typeBits ty + 0x400 * kind.code.toNat ∧
    match kindBits kind with
    | none => ∀ i ∈ [Instr.cvtfrom ty kind, .cvtfromC ty kind, .cvtfromSat ty kind], Raises i q .unsupportedConversion
    | some k =>
      Returns (.cvtfrom ty kind) q { r := port (bv ty.bits (val (kindSigned kind) (q.a.setWidth k))) } ∧
      Returns (.cvtfromSat ty kind) q
        { r := port (bv ty.bits (max (minVal ty.signed ty.bits)
            (min (maxVal ty.signed ty.bits) (val (kindSigned kind) (q.a.setWidth k))))) } ∧
      (if fits ty.signed ty.bits (val (kindSigned kind) (q.a.setWidth k))
        then Returns (.cvtfromC ty kind) q { r := port (bv ty.bits (val (kindSigned kind) (q.a.setWidth k))) }
        else Raises (.cvtfromC ty kind) q .overflow)

/-- R202: the truncating conversion keeps the low bits, and to a wider destination extends with the source's sign or with
zeros, bit by bit. Derived in the spec; the kinds' widths are G5 (log 12). -/
def Obligations.TruncatingConversionExtends : Prop :=
  ∀ (ty : Ty) (kind : Kind) (k : Nat) (q : Request), kindBits kind = some k →
    (∃ v, Returns (.cvtto ty kind) q v ∧ OnlyR v ∧ ∀ j : Nat, v.r.getLsbD j =
      if k ≤ j then false else if j < ty.bits then q.a.getLsbD j else ty.signed && q.a.getLsbD (ty.bits - 1)) ∧
    (∃ v, Returns (.cvtfrom ty kind) q v ∧ OnlyR v ∧ ∀ j : Nat, v.r.getLsbD j =
      if ty.bits ≤ j then false else if j < k then q.a.getLsbD j else kindSigned kind && q.a.getLsbD (k - 1))

/-- R245: UnsupportedConversionError is raised by CVTTO and CVTFROM exactly when KIND is 14 or 15, under every policy,
whatever A holds, and by nothing else. -/
def Obligations.UnmappedKindsAreUnsupported : Prop :=
  ∀ (i : Instr) (q : Request), Raises i q .unsupportedConversion ↔
    ∃ (ty : Ty) (kind : Kind), kind ∈ [Kind.none14, .none15] ∧
      i ∈ [Instr.cvtto ty kind, .cvttoC ty kind, .cvttoSat ty kind, .cvtfrom ty kind, .cvtfromC ty kind,
        .cvtfromSat ty kind]

/-- R207, derived in the spec: checked to a kind and checked back, when neither fails, returns the original value (kinds'
widths: G5, log 12). -/
def Obligations.CheckedConversionRoundTrip : Prop :=
  ∀ (ty : Ty) (kind : Kind) (x : Port) (v w : Value), Returns (.cvttoC ty kind) (ports x 0) v →
    Returns (.cvtfromC ty kind) (ports v.r 0) w → w = { r := port (x.setWidth ty.bits) }

/-! ### Byte codec -/

/-- R221 to R224: WRBE and WRLE give all W/8 bytes, in the order of the opcode, when the capacity is enough, and else
false and no byte. What big-endian and little-endian mean is the spec's general knowledge G1 (log 11). -/
def Obligations.WritesGiveAllBytesOrNone : Prop :=
  ∀ (ty : Ty) (q : Request),
    (encode (.wrbe ty)).toNat = 0x038 + typeBits ty ∧ (encode (.wrle ty)).toNat = 0x039 + typeBits ty ∧
    (if ty.bits / 8 ≤ q.b.toNat then
      (∃ v, Returns (.wrbe ty) q v ∧ v.t = true ∧ v.rh = 0 ∧ v.c = false ∧ v.ord = 0 ∧ v.r.toNat < 2 ^ ty.bits ∧
        ∀ i : Nat, i < ty.bits / 8 → byte v.r i = byte (operandA ty q) (ty.bits / 8 - 1 - i)) ∧
      Returns (.wrle ty) q { r := port (operandA ty q), t := true }
    else Returns (.wrbe ty) q {} ∧ Returns (.wrle ty) q {})

/-- R225, R226, R228: RDLE reads the low 8n bits of A as a signed or unsigned number and succeeds
exactly when it fits. The meaning of little-endian is G1 (log 11). -/
def Obligations.LittleEndianReadsFit : Prop :=
  ∀ (ty : Ty) (isUnsigned : Bool) (q : Request),
    (encode (.rdle ty isUnsigned)).toNat = 0x03B + typeBits ty + (if isUnsigned then 0x400 else 0) ∧
    (if 64 < q.b.toNat then Raises (.rdle ty isUnsigned) q .illegalRequest
      else if fits ty.signed ty.bits (val (!isUnsigned) (q.a.setWidth (8 * q.b.toNat)))
      then Returns (.rdle ty isUnsigned) q
        { r := port (bv ty.bits (val (!isUnsigned) (q.a.setWidth (8 * q.b.toNat)))), t := true }
      else Returns (.rdle ty isUnsigned) q {})

/-- R225, R226, R227: RDBE reads the number whose most significant byte is the first of the n source bytes, and succeeds
exactly when it fits. The meaning of big-endian is G1 (log 11). -/
def Obligations.BigEndianReadsFit : Prop :=
  ∀ (ty : Ty) (isUnsigned : Bool) (q : Request) (m : BitVec (8 * q.b.toNat)),
    (encode (.rdbe ty isUnsigned)).toNat = 0x03A + typeBits ty + (if isUnsigned then 0x400 else 0) ∧
    ((∀ i : Nat, i < q.b.toNat → byte m (q.b.toNat - 1 - i) = byte q.a i) →
      if 64 < q.b.toNat then Raises (.rdbe ty isUnsigned) q .illegalRequest
      else if fits ty.signed ty.bits (val (!isUnsigned) m)
      then Returns (.rdbe ty isUnsigned) q { r := port (bv ty.bits (val (!isUnsigned) m)), t := true }
      else Returns (.rdbe ty isUnsigned) q {})

/-- R230, derived in the spec: what WRBE or WRLE writes, RDBE or RDLE of the same length and the type's own
signedness reads back. -/
def Obligations.CodecRoundTrip : Prop :=
  ∀ (ty : Ty) (x : Port),
    (∃ v, Returns (.wrbe ty) (ports x (BitVec.ofNat 512 (ty.bits / 8))) v ∧
      Returns (.rdbe ty (!ty.signed)) (ports v.r (BitVec.ofNat 512 (ty.bits / 8)))
        { r := port (x.setWidth ty.bits), t := true }) ∧
    (∃ v, Returns (.wrle ty) (ports x (BitVec.ofNat 512 (ty.bits / 8))) v ∧
      Returns (.rdle ty (!ty.signed)) (ports v.r (BitVec.ofNat 512 (ty.bits / 8)))
        { r := port (x.setWidth ty.bits), t := true })

/-! ### The requester's list -/

/-- R70, R251: a list of request lines stops at the first error response: nothing comes after an error. The requester's
layer is the model's form (log 17), the stop the spec's decision D21. -/
def Obligations.ListStopsAtFirstError : Prop :=
  ∀ (p : Program) (before after : Labelled) (label : Nat) (k : ErrorKind),
    runProgram p = before ++ (label, .error k) :: after →
      after = [] ∧ ∀ entry ∈ before, ∃ v, entry.2 = .value v
end

