-- ==== Sys2Proof/Laws/Operands.lean ====
section
/-! SUPPORT. The notation of rule R14 pushed down to arithmetic: ports, bv, val, fits, shifts. -/

namespace Sys2Proof

theorem Ty.bits_cases (ty : Ty) : ty.bits = 256 ∨ ty.bits = 512 := by
  obtain ⟨s, w⟩ := ty
  cases w
  · exact .inl rfl
  · exact .inr rfl

theorem Ty.bits_pos (ty : Ty) : 0 < ty.bits := by
  rcases ty.bits_cases with h | h <;> omega

theorem Ty.bits_le_port (ty : Ty) : ty.bits ≤ 512 := by
  rcases ty.bits_cases with h | h <;> omega

theorem Width.half_add_half (w : Width) : w.halfBits + w.halfBits = w.bits := by cases w <;> rfl

theorem Width.limbs_mul (w : Width) : 64 * w.limbs = w.bits := by cases w <;> rfl

theorem Width.bytes_mul (w : Width) : 8 * w.bytes = w.bits := by cases w <;> rfl

end Sys2Proof

namespace Sys2Proof.Machine

theorem pow2_pos (k : Nat) : 0 < pow2 k := by
  unfold pow2
  exact_mod_cast Nat.two_pow_pos k

/-- A result on a port keeps its unsigned value (R28). -/
theorem port_toNat {n : Nat} (h : n ≤ 512) (v : BitVec n) : (port v).toNat = v.toNat := by
  simp only [port, BitVec.toNat_setWidth_of_le h]

/-- The bits of a result on a port (R28). -/
theorem port_getLsbD {n : Nat} (h : n ≤ 512) (v : BitVec n) (j : Nat) : (port v).getLsbD j = v.getLsbD j := by
  simp only [port, BitVec.getLsbD_setWidth]
  by_cases hj : j < 512
  · simp [hj]
  · simp [hj, BitVec.getLsbD_of_ge v j (by omega)]

/-- Reading back the low n bits of a port that carries an n-bit result. -/
theorem setWidth_port {n : Nat} (h : n ≤ 512) (v : BitVec n) : (port v).setWidth n = v := by
  apply BitVec.eq_of_toNat_eq
  rw [BitVec.toNat_setWidth, port_toNat h, Nat.mod_eq_of_lt v.isLt]

/-- The unsigned value of bv(n, x) (R14). -/
theorem bv_toNat (n : Nat) (x : Int) : (bv n x).toNat = (x % pow2 n).toNat := by
  simp [bv, pow2, BitVec.toNat_ofInt]

theorem bv_natCast (n k : Nat) : bv n (k : Int) = BitVec.ofNat n k := by
  simp [bv]

@[simp] theorem bv_uval {n : Nat} (v : BitVec n) : bv n (uval v) = v := by
  simp [uval, bv_natCast]

@[simp] theorem bv_sval {n : Nat} (v : BitVec n) : bv n (sval v) = v := by
  simp [sval, bv]

@[simp] theorem bv_val {n : Nat} (s : Bool) (v : BitVec n) : bv n (val s v) = v := by
  cases s <;> simp [val]

theorem uval_nonneg {n : Nat} (v : BitVec n) : 0 ≤ uval v := by simp [uval]

theorem uval_lt {n : Nat} (v : BitVec n) : uval v < pow2 n := by
  simp only [uval, pow2]
  exact_mod_cast v.isLt

theorem fits_iff (s : Bool) (n : Nat) (x : Int) : fits s n x = true ↔ minVal s n ≤ x ∧ x ≤ maxVal s n := by
  simp [fits]

/-- The value of a pattern fits its type (R14, R33). -/
theorem fits_val (s : Bool) {n : Nat} (h : 0 < n) (v : BitVec n) : fits s n (val s v) = true := by
  obtain ⟨m, rfl⟩ : ∃ m, n = m + 1 := ⟨n - 1, by omega⟩
  rw [fits_iff]
  cases s
  · have h1 := uval_nonneg v
    have h2 := uval_lt v
    simp only [val, minVal, maxVal, Bool.false_eq_true, if_false]
    omega
  · have h1 := BitVec.le_two_mul_toInt (x := v)
    have h2 := BitVec.two_mul_toInt_lt (x := v)
    simp only [val, sval, minVal, maxVal, pow2, if_true, Nat.add_sub_cancel]
    rw [pow_succ] at h1 h2
    push_cast at *
    omega

/-- The shifter's integer form of a left shift is the shift of the pattern (R167). -/
theorem shiftLeft_eq {w : Nat} (a : BitVec w) (n : Nat) : shiftLeft a n = a <<< n := by
  apply BitVec.eq_of_toNat_eq
  simp only [shiftLeft, bv_toNat, uval, pow2, BitVec.toNat_shiftLeft, Nat.shiftLeft_eq]
  norm_cast

/-- The integer form of a logical right shift is the shift of the pattern (R169). -/
theorem shiftRightLogical_eq {w : Nat} (a : BitVec w) (n : Nat) : shiftRightLogical a n = a >>> n := by
  apply BitVec.eq_of_toNat_eq
  have hlt : a.toNat / 2 ^ n < 2 ^ w := lt_of_le_of_lt (Nat.div_le_self _ _) a.isLt
  have hdiv : Int.fdiv (uval a) (pow2 n) = ((a.toNat / 2 ^ n : Nat) : Int) := by
    rw [Int.fdiv_eq_ediv_of_nonneg _ (pow2_pos n).le]
    simp [uval, pow2]
  rw [shiftRightLogical, hdiv, bv_natCast, BitVec.toNat_ofNat, Nat.mod_eq_of_lt hlt, BitVec.toNat_ushiftRight,
    Nat.shiftRight_eq_div_pow]

/-- The integer form of an arithmetic right shift is the shift of the pattern (R168). -/
theorem shiftRightArithmetic_eq {w : Nat} (a : BitVec w) (n : Nat) : shiftRightArithmetic a n = a.sshiftRight n := by
  have hdiv : Int.fdiv (sval a) (pow2 n) = sval a >>> n := by
    rw [Int.fdiv_eq_ediv_of_nonneg _ (pow2_pos n).le, Int.shiftRight_eq_div_pow]
    simp [pow2]
  rw [shiftRightArithmetic, hdiv]
  rfl

/-- The sign bit is a negative two's-complement value (R14). -/
theorem sign_iff_neg {n : Nat} (v : BitVec n) : sign v = true ↔ sval v < 0 := by
  simp [sign, sval, BitVec.msb_eq_toInt]

end Sys2Proof.Machine
end

