-- ==== Sys2Proof/Laws/State.lean ====
section
/-! SUPPORT. One lemma per field per update of the state, and the canonical facts of State.reset. -/

namespace Sys2Proof.Machine

@[simp] theorem respond_inFlight (s : State) (r : Response) : (s.respond r).inFlight = s.inFlight.tail := rfl
@[simp] theorem respond_responses (s : State) (r : Response) : (s.respond r).responses = s.responses ++ [r] := rfl

@[simp] theorem respond_cons (q : Request) (rest : List Request) (given : List Response) (r : Response) :
    State.respond ⟨q :: rest, given⟩ r = ⟨rest, given ++ [r]⟩ := rfl

@[simp] theorem present_inFlight (s : State) (q : Request) : (s.present q).inFlight = s.inFlight ++ [q] := rfl
@[simp] theorem present_responses (s : State) (q : Request) : (s.present q).responses = s.responses := rfl

@[simp] theorem resetEvent_inFlight (s : State) : s.resetEvent.inFlight = [] := rfl
@[simp] theorem resetEvent_responses (s : State) : s.resetEvent.responses = s.responses := rfl

@[simp] theorem reset_inFlight : State.reset.inFlight = [] := rfl
@[simp] theorem reset_responses : State.reset.responses = [] := rfl

@[simp] theorem withFetchWord_responses (s : State) (nbits w : Nat) : (s.withFetchWord nbits w).responses = s.responses :=
  rfl
@[simp] theorem withFetchWord_inFlight (s : State) (nbits w : Nat) :
    (s.withFetchWord nbits w).inFlight = placeCommand (BitVec.ofNat 16 (w % 2 ^ nbits)) s.inFlight := rfl

/-- The word placed is the word the next step reads. -/
theorem commandWord_withFetchWord (s : State) (nbits w : Nat) :
    commandWord (s.withFetchWord nbits w) = some (BitVec.ofNat 16 (w % 2 ^ nbits)) := by
  obtain ⟨l, rs⟩ := s
  cases l <;> rfl

end Sys2Proof.Machine
end

