-- ==== Sys2Proof/Laws/Ops.lean ====
section
/-! SUPPORT. What the shared operations can do, once each; every meaning as one transaction; the frame of every
instruction. -/

namespace Sys2Proof.Machine

@[simp] theorem transact_cons (q : Request) (rest : List Request) (given : List Response) (f : Request → Response) :
    transact ⟨q :: rest, given⟩ f = .next ⟨rest, given ++ [f q]⟩ := rfl

@[simp] theorem transact_nil (given : List Response) (f : Request → Response) :
    transact ⟨[], given⟩ f = .fault .noRequest := rfl

/-- Everything a transaction can do: if it answers a next state, there was an oldest request, it is no longer in flight,
and its response has been given; nothing else changes. -/
theorem transact_next {s t : State} {f : Request → Response} (h : transact s f = .next t) :
    ∃ q rest, s.inFlight = q :: rest ∧ t = ⟨rest, s.responses ++ [f q]⟩ := by
  obtain ⟨l, given⟩ := s
  cases l with
  | nil => cases h
  | cons q rest =>
    cases h
    exact ⟨q, rest, rfl, rfl⟩

/-- A transaction never refuses. -/
theorem transact_not_refused (s : State) (f : Request → Response) (e : Refusal) : transact s f ≠ .refused e := by
  obtain ⟨l, given⟩ := s
  cases l <;> simp

/-- The response each instruction's meaning gives to a request. -/
def meaning : Instr → Request → Response
  | .cat ty => fun q => okR (halfA ty q ++ halfB ty q)
  | .upr ty => fun q => okR (upperHalf ty (operandA ty q))
  | .lwr ty => fun q => okR (lowerHalf ty (operandA ty q))
  | .add ty => fun q => addResponse false ty (operandA ty q) (operandB ty q)
  | .addC ty => fun q => addResponse true ty (operandA ty q) (operandB ty q)
  | .sub ty => fun q => subResponse false ty (operandA ty q) (operandB ty q)
  | .subC ty => fun q => subResponse true ty (operandA ty q) (operandB ty q)
  | .neg ty => fun q => subResponse false ty 0 (operandA ty q)
  | .negC ty => fun q => subResponse true ty 0 (operandA ty q)
  | .inc ty => fun q => addResponse false ty (operandA ty q) (bv ty.bits 1)
  | .incC ty => fun q => addResponse true ty (operandA ty q) (bv ty.bits 1)
  | .dec ty => fun q => subResponse false ty (operandA ty q) (bv ty.bits 1)
  | .decC ty => fun q => subResponse true ty (operandA ty q) (bv ty.bits 1)
  | .mul ty => fun q => okR (bv ty.bits (exactProduct ty q))
  | .mulC ty => fun q =>
    if fits ty.signed ty.bits (exactProduct ty q) then okR (bv ty.bits (exactProduct ty q)) else raise .overflow
  | .bmul ty => fun q =>
    okRRH ((wideProduct ty q).extractLsb' 0 ty.bits) ((wideProduct ty q).extractLsb' ty.bits ty.bits)
  | .div ty => divResponse ty
  | .divC ty => divResponse ty
  | .rem ty => remResponse ty
  | .remC ty => remResponse ty
  | .divrem ty => divremResponse ty
  | .divremC ty => divremResponse ty
  | .and ty => fun q => okR (operandA ty q &&& operandB ty q)
  | .or ty => fun q => okR (operandA ty q ||| operandB ty q)
  | .xor ty => fun q => okR (operandA ty q ^^^ operandB ty q)
  | .not ty => fun q => okR (~~~(operandA ty q))
  | .shl ty => fun q => okR (shiftLeft (operandA ty q) (amount ty q))
  | .shr ty => fun q =>
    if ty.signed then okR (shiftRightArithmetic (operandA ty q) (amount ty q))
    else okR (shiftRightLogical (operandA ty q) (amount ty q))
  | .shrl ty => fun q => okR (shiftRightLogical (operandA ty q) (amount ty q))
  | .rol ty => fun q => okR (rotateLeft (operandA ty q) (amount ty q))
  | .ror ty => fun q => okR (rotateRight (operandA ty q) (amount ty q))
  | .lzc ty => fun q => okCount (leadingZeros (operandA ty q))
  | .tzc ty => fun q => okCount (trailingZeros (operandA ty q))
  | .popc ty => fun q => okCount (populationCount (operandA ty q))
  | .cmp ty => fun q => okOrd (ordering (val ty.signed (operandA ty q)) (val ty.signed (operandB ty q)))
  | .cvtto ty kind => cvttoResponse .wrapping ty kind
  | .cvttoC ty kind => cvttoResponse .checked ty kind
  | .cvttoSat ty kind => cvttoResponse .saturating ty kind
  | .cvtfrom ty kind => cvtfromResponse .wrapping ty kind
  | .cvtfromC ty kind => cvtfromResponse .checked ty kind
  | .cvtfromSat ty kind => cvtfromResponse .saturating ty kind
  | .wrbe ty => fun q => writeResponse ty q (bigEndian ty.width.bytes (operandA ty q))
  | .wrle ty => fun q => writeResponse ty q (littleEndian ty.width.bytes (operandA ty q))
  | .rdbe ty isUnsigned => rdbeResponse ty isUnsigned
  | .rdle ty isUnsigned => rdleResponse ty isUnsigned

/-- Every instruction is one transaction whose response is its meaning: the frame of all 45 at once. -/
theorem exec_eq_transact (i : Instr) (s : State) : exec i s = transact s (meaning i) := by
  cases i <;> rfl

/-- An instruction answers a request with its meaning and with nothing else. -/
theorem responds_iff (i : Instr) (q : Request) (r : Response) : Responds i q r ↔ meaning i q = r := by
  constructor
  · intro h
    have h0 := h [] []
    rw [exec_eq_transact, transact_cons] at h0
    simpa using h0
  · rintro rfl rest given
    rw [exec_eq_transact, transact_cons]

/-- An illegal command word is answered IllegalRequest. -/
theorem answerIllegal_cons (q : Request) (rest : List Request) (given : List Response) :
    answerIllegal ⟨q :: rest, given⟩ = .next ⟨rest, given ++ [.error .illegalRequest]⟩ := rfl

/-- Everything a step can do, by what the oldest request's command word decodes to. -/
theorem step_cases {s t : State} (h : step s = .next t) :
    ∃ q rest, s.inFlight = q :: rest ∧
      ((∃ i, decode q.cmd = .ok i ∧ t = ⟨rest, s.responses ++ [meaning i q]⟩) ∨
        (∃ e, decode q.cmd = .error e ∧ t = ⟨rest, s.responses ++ [.error .illegalRequest]⟩)) := by
  obtain ⟨l, given⟩ := s
  cases l with
  | nil => cases h
  | cons q rest =>
    refine ⟨q, rest, rfl, ?_⟩
    simp only [step, commandWord, List.head?_cons, Option.map_some] at h
    cases hd : decode q.cmd with
    | ok i =>
      rw [hd] at h
      simp only [exec_eq_transact, transact_cons] at h
      cases h
      exact .inl ⟨i, rfl, rfl⟩
    | error e =>
      rw [hd] at h
      cases h
      exact .inr ⟨e, rfl, rfl⟩

end Sys2Proof.Machine
end

