-- ==== Sys2Proof/Laws/PerInstr.lean ====
section
/-! SUPPORT. The family of statements made per instruction (LAWS.json): the command word of an instruction has no reserved
or illegal field (30_encoding.md rule R66) and matches its own row of the opcode table (R72). -/

namespace Sys2Proof.Laws

/-- The row of the opcode table, counted from 0, that an instruction belongs to (R72). -/
def rowOf : Instr → Nat
  | .cat _ => 0
  | .upr _ => 1
  | .lwr _ => 2
  | .add _ => 3
  | .addC _ => 4
  | .sub _ => 5
  | .subC _ => 6
  | .neg _ => 7
  | .negC _ => 8
  | .inc _ => 9
  | .incC _ => 10
  | .dec _ => 11
  | .decC _ => 12
  | .mul _ => 13
  | .mulC _ => 14
  | .bmul _ => 15
  | .div _ => 16
  | .divC _ => 17
  | .rem _ => 18
  | .remC _ => 19
  | .divrem _ => 20
  | .divremC _ => 21
  | .and _ => 22
  | .or _ => 23
  | .xor _ => 24
  | .not _ => 25
  | .shl _ => 26
  | .shr _ => 27
  | .shrl _ => 28
  | .rol _ => 29
  | .ror _ => 30
  | .lzc _ => 31
  | .tzc _ => 32
  | .popc _ => 33
  | .cmp _ => 34
  | .cvtto _ _ => 35
  | .cvttoC _ _ => 36
  | .cvttoSat _ _ => 37
  | .cvtfrom _ _ => 38
  | .cvtfromC _ _ => 39
  | .cvtfromSat _ _ => 40
  | .wrbe _ => 41
  | .wrle _ => 42
  | .rdbe _ _ => 43
  | .rdle _ _ => 44

/-- The instruction's word is legal and its row of the table covers it. -/
def EncodesItsRow.Statement (i : Instr) : Prop :=
  (fieldsOf (encode i)).wellFormed = true ∧
    ((opcodeTable[rowOf i]?).map fun row => row.covers (encode i)) = some true

theorem EncodesItsRow.cat (ty : Ty) : EncodesItsRow.Statement (.cat ty) := by
  obtain ⟨s, w⟩ := ty
  cases s <;> cases w <;> exact ⟨rfl, rfl⟩

theorem EncodesItsRow.upr (ty : Ty) : EncodesItsRow.Statement (.upr ty) := by
  obtain ⟨s, w⟩ := ty
  cases s <;> cases w <;> exact ⟨rfl, rfl⟩

theorem EncodesItsRow.lwr (ty : Ty) : EncodesItsRow.Statement (.lwr ty) := by
  obtain ⟨s, w⟩ := ty
  cases s <;> cases w <;> exact ⟨rfl, rfl⟩

theorem EncodesItsRow.add (ty : Ty) : EncodesItsRow.Statement (.add ty) := by
  obtain ⟨s, w⟩ := ty
  cases s <;> cases w <;> exact ⟨rfl, rfl⟩

theorem EncodesItsRow.addC (ty : Ty) : EncodesItsRow.Statement (.addC ty) := by
  obtain ⟨s, w⟩ := ty
  cases s <;> cases w <;> exact ⟨rfl, rfl⟩

theorem EncodesItsRow.sub (ty : Ty) : EncodesItsRow.Statement (.sub ty) := by
  obtain ⟨s, w⟩ := ty
  cases s <;> cases w <;> exact ⟨rfl, rfl⟩

theorem EncodesItsRow.subC (ty : Ty) : EncodesItsRow.Statement (.subC ty) := by
  obtain ⟨s, w⟩ := ty
  cases s <;> cases w <;> exact ⟨rfl, rfl⟩

theorem EncodesItsRow.neg (ty : Ty) : EncodesItsRow.Statement (.neg ty) := by
  obtain ⟨s, w⟩ := ty
  cases s <;> cases w <;> exact ⟨rfl, rfl⟩

theorem EncodesItsRow.negC (ty : Ty) : EncodesItsRow.Statement (.negC ty) := by
  obtain ⟨s, w⟩ := ty
  cases s <;> cases w <;> exact ⟨rfl, rfl⟩

theorem EncodesItsRow.inc (ty : Ty) : EncodesItsRow.Statement (.inc ty) := by
  obtain ⟨s, w⟩ := ty
  cases s <;> cases w <;> exact ⟨rfl, rfl⟩

theorem EncodesItsRow.incC (ty : Ty) : EncodesItsRow.Statement (.incC ty) := by
  obtain ⟨s, w⟩ := ty
  cases s <;> cases w <;> exact ⟨rfl, rfl⟩

theorem EncodesItsRow.dec (ty : Ty) : EncodesItsRow.Statement (.dec ty) := by
  obtain ⟨s, w⟩ := ty
  cases s <;> cases w <;> exact ⟨rfl, rfl⟩

theorem EncodesItsRow.decC (ty : Ty) : EncodesItsRow.Statement (.decC ty) := by
  obtain ⟨s, w⟩ := ty
  cases s <;> cases w <;> exact ⟨rfl, rfl⟩

theorem EncodesItsRow.mul (ty : Ty) : EncodesItsRow.Statement (.mul ty) := by
  obtain ⟨s, w⟩ := ty
  cases s <;> cases w <;> exact ⟨rfl, rfl⟩

theorem EncodesItsRow.mulC (ty : Ty) : EncodesItsRow.Statement (.mulC ty) := by
  obtain ⟨s, w⟩ := ty
  cases s <;> cases w <;> exact ⟨rfl, rfl⟩

theorem EncodesItsRow.bmul (ty : Ty) : EncodesItsRow.Statement (.bmul ty) := by
  obtain ⟨s, w⟩ := ty
  cases s <;> cases w <;> exact ⟨rfl, rfl⟩

theorem EncodesItsRow.div (ty : Ty) : EncodesItsRow.Statement (.div ty) := by
  obtain ⟨s, w⟩ := ty
  cases s <;> cases w <;> exact ⟨rfl, rfl⟩

theorem EncodesItsRow.divC (ty : Ty) : EncodesItsRow.Statement (.divC ty) := by
  obtain ⟨s, w⟩ := ty
  cases s <;> cases w <;> exact ⟨rfl, rfl⟩

theorem EncodesItsRow.rem (ty : Ty) : EncodesItsRow.Statement (.rem ty) := by
  obtain ⟨s, w⟩ := ty
  cases s <;> cases w <;> exact ⟨rfl, rfl⟩

theorem EncodesItsRow.remC (ty : Ty) : EncodesItsRow.Statement (.remC ty) := by
  obtain ⟨s, w⟩ := ty
  cases s <;> cases w <;> exact ⟨rfl, rfl⟩

theorem EncodesItsRow.divrem (ty : Ty) : EncodesItsRow.Statement (.divrem ty) := by
  obtain ⟨s, w⟩ := ty
  cases s <;> cases w <;> exact ⟨rfl, rfl⟩

theorem EncodesItsRow.divremC (ty : Ty) : EncodesItsRow.Statement (.divremC ty) := by
  obtain ⟨s, w⟩ := ty
  cases s <;> cases w <;> exact ⟨rfl, rfl⟩

theorem EncodesItsRow.and (ty : Ty) : EncodesItsRow.Statement (.and ty) := by
  obtain ⟨s, w⟩ := ty
  cases s <;> cases w <;> exact ⟨rfl, rfl⟩

theorem EncodesItsRow.or (ty : Ty) : EncodesItsRow.Statement (.or ty) := by
  obtain ⟨s, w⟩ := ty
  cases s <;> cases w <;> exact ⟨rfl, rfl⟩

theorem EncodesItsRow.xor (ty : Ty) : EncodesItsRow.Statement (.xor ty) := by
  obtain ⟨s, w⟩ := ty
  cases s <;> cases w <;> exact ⟨rfl, rfl⟩

theorem EncodesItsRow.not (ty : Ty) : EncodesItsRow.Statement (.not ty) := by
  obtain ⟨s, w⟩ := ty
  cases s <;> cases w <;> exact ⟨rfl, rfl⟩

theorem EncodesItsRow.shl (ty : Ty) : EncodesItsRow.Statement (.shl ty) := by
  obtain ⟨s, w⟩ := ty
  cases s <;> cases w <;> exact ⟨rfl, rfl⟩

theorem EncodesItsRow.shr (ty : Ty) : EncodesItsRow.Statement (.shr ty) := by
  obtain ⟨s, w⟩ := ty
  cases s <;> cases w <;> exact ⟨rfl, rfl⟩

theorem EncodesItsRow.shrl (ty : Ty) : EncodesItsRow.Statement (.shrl ty) := by
  obtain ⟨s, w⟩ := ty
  cases s <;> cases w <;> exact ⟨rfl, rfl⟩

theorem EncodesItsRow.rol (ty : Ty) : EncodesItsRow.Statement (.rol ty) := by
  obtain ⟨s, w⟩ := ty
  cases s <;> cases w <;> exact ⟨rfl, rfl⟩

theorem EncodesItsRow.ror (ty : Ty) : EncodesItsRow.Statement (.ror ty) := by
  obtain ⟨s, w⟩ := ty
  cases s <;> cases w <;> exact ⟨rfl, rfl⟩

theorem EncodesItsRow.lzc (ty : Ty) : EncodesItsRow.Statement (.lzc ty) := by
  obtain ⟨s, w⟩ := ty
  cases s <;> cases w <;> exact ⟨rfl, rfl⟩

theorem EncodesItsRow.tzc (ty : Ty) : EncodesItsRow.Statement (.tzc ty) := by
  obtain ⟨s, w⟩ := ty
  cases s <;> cases w <;> exact ⟨rfl, rfl⟩

theorem EncodesItsRow.popc (ty : Ty) : EncodesItsRow.Statement (.popc ty) := by
  obtain ⟨s, w⟩ := ty
  cases s <;> cases w <;> exact ⟨rfl, rfl⟩

theorem EncodesItsRow.cmp (ty : Ty) : EncodesItsRow.Statement (.cmp ty) := by
  obtain ⟨s, w⟩ := ty
  cases s <;> cases w <;> exact ⟨rfl, rfl⟩

theorem EncodesItsRow.cvtto (ty : Ty) (kind : Kind) : EncodesItsRow.Statement (.cvtto ty kind) := by
  obtain ⟨s, w⟩ := ty
  cases s <;> cases w <;> cases kind <;> exact ⟨rfl, rfl⟩

theorem EncodesItsRow.cvttoC (ty : Ty) (kind : Kind) : EncodesItsRow.Statement (.cvttoC ty kind) := by
  obtain ⟨s, w⟩ := ty
  cases s <;> cases w <;> cases kind <;> exact ⟨rfl, rfl⟩

theorem EncodesItsRow.cvttoSat (ty : Ty) (kind : Kind) : EncodesItsRow.Statement (.cvttoSat ty kind) := by
  obtain ⟨s, w⟩ := ty
  cases s <;> cases w <;> cases kind <;> exact ⟨rfl, rfl⟩

theorem EncodesItsRow.cvtfrom (ty : Ty) (kind : Kind) : EncodesItsRow.Statement (.cvtfrom ty kind) := by
  obtain ⟨s, w⟩ := ty
  cases s <;> cases w <;> cases kind <;> exact ⟨rfl, rfl⟩

theorem EncodesItsRow.cvtfromC (ty : Ty) (kind : Kind) : EncodesItsRow.Statement (.cvtfromC ty kind) := by
  obtain ⟨s, w⟩ := ty
  cases s <;> cases w <;> cases kind <;> exact ⟨rfl, rfl⟩

theorem EncodesItsRow.cvtfromSat (ty : Ty) (kind : Kind) : EncodesItsRow.Statement (.cvtfromSat ty kind) := by
  obtain ⟨s, w⟩ := ty
  cases s <;> cases w <;> cases kind <;> exact ⟨rfl, rfl⟩

theorem EncodesItsRow.wrbe (ty : Ty) : EncodesItsRow.Statement (.wrbe ty) := by
  obtain ⟨s, w⟩ := ty
  cases s <;> cases w <;> exact ⟨rfl, rfl⟩

theorem EncodesItsRow.wrle (ty : Ty) : EncodesItsRow.Statement (.wrle ty) := by
  obtain ⟨s, w⟩ := ty
  cases s <;> cases w <;> exact ⟨rfl, rfl⟩

theorem EncodesItsRow.rdbe (ty : Ty) (isUnsigned : Bool) : EncodesItsRow.Statement (.rdbe ty isUnsigned) := by
  obtain ⟨s, w⟩ := ty
  cases s <;> cases w <;> cases isUnsigned <;> exact ⟨rfl, rfl⟩

theorem EncodesItsRow.rdle (ty : Ty) (isUnsigned : Bool) : EncodesItsRow.Statement (.rdle ty isUnsigned) := by
  obtain ⟨s, w⟩ := ty
  cases s <;> cases w <;> cases isUnsigned <;> exact ⟨rfl, rfl⟩

end Sys2Proof.Laws
end

