-- ==== Sys2Proof/Machine/Assembly.lean ====
section
/-! DEFINITION. The text of a request line's operation, 30_encoding.md rule R70: the parts between the dots, in order:
mnemonic, policy suffix, type, kind or extension suffix. -/

namespace Sys2Proof.Machine

/-- The type suffix (R70). -/
def typeSuffix (ty : Ty) : String :=
  match ty.signed, ty.width with
  | false, .w256 => "U256"
  | true, .w256 => "S256"
  | false, .w512 => "U512"
  | true, .w512 => "S512"

/-- The kind suffix (R70); K14 and K15 stand for the codes that name no kind (95_test_vectors.md section 3.7). -/
def kindSuffix : Kind → String
  | .u8 => "U8"
  | .i8 => "I8"
  | .u16 => "U16"
  | .i16 => "I16"
  | .u32 => "U32"
  | .i32 => "I32"
  | .u64 => "U64"
  | .i64 => "I64"
  | .u128 => "U128"
  | .i128 => "I128"
  | .u256 => "U256"
  | .i256 => "I256"
  | .u512 => "U512"
  | .i512 => "I512"
  | .none14 => "K14"
  | .none15 => "K15"

/-- The suffix of a codec read: .SX for isUnsigned false, .ZX for true (R70). -/
def extensionSuffix (isUnsigned : Bool) : String := if isUnsigned then "ZX" else "SX"

/-- The dotted parts of an instruction's text (R70): no policy suffix for wrapping, C for checked, SAT for saturating. -/
def asmParts : Instr → List String
  | .cat ty => ["CAT", typeSuffix ty]
  | .upr ty => ["UPR", typeSuffix ty]
  | .lwr ty => ["LWR", typeSuffix ty]
  | .add ty => ["ADD", typeSuffix ty]
  | .addC ty => ["ADD", "C", typeSuffix ty]
  | .sub ty => ["SUB", typeSuffix ty]
  | .subC ty => ["SUB", "C", typeSuffix ty]
  | .neg ty => ["NEG", typeSuffix ty]
  | .negC ty => ["NEG", "C", typeSuffix ty]
  | .inc ty => ["INC", typeSuffix ty]
  | .incC ty => ["INC", "C", typeSuffix ty]
  | .dec ty => ["DEC", typeSuffix ty]
  | .decC ty => ["DEC", "C", typeSuffix ty]
  | .mul ty => ["MUL", typeSuffix ty]
  | .mulC ty => ["MUL", "C", typeSuffix ty]
  | .bmul ty => ["BMUL", typeSuffix ty]
  | .div ty => ["DIV", typeSuffix ty]
  | .divC ty => ["DIV", "C", typeSuffix ty]
  | .rem ty => ["REM", typeSuffix ty]
  | .remC ty => ["REM", "C", typeSuffix ty]
  | .divrem ty => ["DIVREM", typeSuffix ty]
  | .divremC ty => ["DIVREM", "C", typeSuffix ty]
  | .and ty => ["AND", typeSuffix ty]
  | .or ty => ["OR", typeSuffix ty]
  | .xor ty => ["XOR", typeSuffix ty]
  | .not ty => ["NOT", typeSuffix ty]
  | .shl ty => ["SHL", typeSuffix ty]
  | .shr ty => ["SHR", typeSuffix ty]
  | .shrl ty => ["SHRL", typeSuffix ty]
  | .rol ty => ["ROL", typeSuffix ty]
  | .ror ty => ["ROR", typeSuffix ty]
  | .lzc ty => ["LZC", typeSuffix ty]
  | .tzc ty => ["TZC", typeSuffix ty]
  | .popc ty => ["POPC", typeSuffix ty]
  | .cmp ty => ["CMP", typeSuffix ty]
  | .cvtto ty kind => ["CVTTO", typeSuffix ty, kindSuffix kind]
  | .cvttoC ty kind => ["CVTTO", "C", typeSuffix ty, kindSuffix kind]
  | .cvttoSat ty kind => ["CVTTO", "SAT", typeSuffix ty, kindSuffix kind]
  | .cvtfrom ty kind => ["CVTFROM", typeSuffix ty, kindSuffix kind]
  | .cvtfromC ty kind => ["CVTFROM", "C", typeSuffix ty, kindSuffix kind]
  | .cvtfromSat ty kind => ["CVTFROM", "SAT", typeSuffix ty, kindSuffix kind]
  | .wrbe ty => ["WRBE", typeSuffix ty]
  | .wrle ty => ["WRLE", typeSuffix ty]
  | .rdbe ty isUnsigned => ["RDBE", typeSuffix ty, extensionSuffix isUnsigned]
  | .rdle ty isUnsigned => ["RDLE", typeSuffix ty, extensionSuffix isUnsigned]

/-- The text of an instruction, its parts joined by dots (R70). -/
def asmText (i : Instr) : String := String.intercalate "." (asmParts i)

end Sys2Proof.Machine
end

