-- ==== Sys2Proof/Tests/Slice0.lean ====
section
/-! SUPPORT. Tests: decoding of words written out bit by bit (30_encoding.md rules R61 to R67, R72), the refusals of
WellFormed, one step per vector of 95_test_vectors.md (named in each docstring), and the witnesses that the hypotheses of
the statements are met. -/

namespace Sys2Proof.Tests

open Sys2Proof Sys2Proof.Machine

-- One proof at a time: each `decide +kernel` would else hold a thread of its own while it waits.
set_option Elab.async false

/-! ### Decoding: the fields RSV, KIND, POL, S, WSEL, OPC from bit 15 down, each written out (R61) -/

/-- The word with the given fields, RSV uppermost (R61). -/
def word (rsv : BitVec 2) (kind : BitVec 4) (pol : BitVec 2) (s wsel : BitVec 1) (opc : BitVec 6) : CmdWord :=
  rsv ++ kind ++ pol ++ s ++ wsel ++ opc

theorem test_decode_composition :
    decode (word 0b00 0b0000 0b00 0b1 0b0 0b000001) = .ok (.cat .s256) ∧
    decode (word 0b00 0b0000 0b00 0b0 0b1 0b000010) = .ok (.upr .u512) ∧
    decode (word 0b00 0b0000 0b00 0b1 0b1 0b000011) = .ok (.lwr .s512) := by
  decide +kernel

theorem test_decode_addSub :
    decode (word 0b00 0b0000 0b00 0b0 0b0 0b001000) = .ok (.add .u256) ∧
    decode (word 0b00 0b0000 0b01 0b1 0b1 0b001000) = .ok (.addC .s512) ∧
    decode (word 0b00 0b0000 0b00 0b1 0b0 0b001001) = .ok (.sub .s256) ∧
    decode (word 0b00 0b0000 0b01 0b0 0b1 0b001001) = .ok (.subC .u512) ∧
    decode (word 0b00 0b0000 0b00 0b0 0b0 0b001010) = .ok (.neg .u256) ∧
    decode (word 0b00 0b0000 0b01 0b1 0b0 0b001010) = .ok (.negC .s256) ∧
    decode (word 0b00 0b0000 0b00 0b1 0b1 0b001011) = .ok (.inc .s512) ∧
    decode (word 0b00 0b0000 0b01 0b0 0b0 0b001011) = .ok (.incC .u256) ∧
    decode (word 0b00 0b0000 0b00 0b0 0b1 0b001100) = .ok (.dec .u512) ∧
    decode (word 0b00 0b0000 0b01 0b1 0b0 0b001100) = .ok (.decC .s256) := by
  decide +kernel

theorem test_decode_multiply :
    decode (word 0b00 0b0000 0b00 0b1 0b0 0b010000) = .ok (.mul .s256) ∧
    decode (word 0b00 0b0000 0b01 0b0 0b1 0b010000) = .ok (.mulC .u512) ∧
    decode (word 0b00 0b0000 0b00 0b1 0b1 0b010001) = .ok (.bmul .s512) := by
  decide +kernel

theorem test_decode_divide :
    decode (word 0b00 0b0000 0b00 0b1 0b1 0b011000) = .ok (.div .s512) ∧
    decode (word 0b00 0b0000 0b01 0b0 0b0 0b011000) = .ok (.divC .u256) ∧
    decode (word 0b00 0b0000 0b00 0b1 0b0 0b011001) = .ok (.rem .s256) ∧
    decode (word 0b00 0b0000 0b01 0b0 0b1 0b011001) = .ok (.remC .u512) ∧
    decode (word 0b00 0b0000 0b00 0b0 0b0 0b011010) = .ok (.divrem .u256) ∧
    decode (word 0b00 0b0000 0b01 0b1 0b1 0b011010) = .ok (.divremC .s512) := by
  decide +kernel

theorem test_decode_bitwise :
    decode (word 0b00 0b0000 0b00 0b0 0b1 0b100000) = .ok (.and .u512) ∧
    decode (word 0b00 0b0000 0b00 0b1 0b0 0b100001) = .ok (.or .s256) ∧
    decode (word 0b00 0b0000 0b00 0b0 0b0 0b100010) = .ok (.xor .u256) ∧
    decode (word 0b00 0b0000 0b00 0b1 0b1 0b100011) = .ok (.not .s512) ∧
    decode (word 0b00 0b0000 0b00 0b0 0b0 0b100100) = .ok (.shl .u256) ∧
    decode (word 0b00 0b0000 0b00 0b1 0b1 0b100101) = .ok (.shr .s512) ∧
    decode (word 0b00 0b0000 0b00 0b1 0b0 0b100110) = .ok (.shrl .s256) ∧
    decode (word 0b00 0b0000 0b00 0b0 0b1 0b100111) = .ok (.rol .u512) ∧
    decode (word 0b00 0b0000 0b00 0b1 0b0 0b101000) = .ok (.ror .s256) := by
  decide +kernel

theorem test_decode_count :
    decode (word 0b00 0b0000 0b00 0b0 0b1 0b101001) = .ok (.lzc .u512) ∧
    decode (word 0b00 0b0000 0b00 0b0 0b0 0b101010) = .ok (.tzc .u256) ∧
    decode (word 0b00 0b0000 0b00 0b1 0b1 0b101011) = .ok (.popc .s512) := by
  decide +kernel

theorem test_decode_comparison :
    decode (word 0b00 0b0000 0b00 0b1 0b0 0b110000) = .ok (.cmp .s256) := by
  decide +kernel

theorem test_decode_conversion :
    decode (word 0b00 0b1010 0b00 0b1 0b0 0b110100) = .ok (.cvtto .s256 .u256) ∧
    decode (word 0b00 0b0111 0b01 0b0 0b1 0b110100) = .ok (.cvttoC .u512 .i64) ∧
    decode (word 0b00 0b1110 0b10 0b1 0b1 0b110100) = .ok (.cvttoSat .s512 .none14) ∧
    decode (word 0b00 0b0001 0b00 0b0 0b0 0b110101) = .ok (.cvtfrom .u256 .i8) ∧
    decode (word 0b00 0b1101 0b01 0b1 0b1 0b110101) = .ok (.cvtfromC .s512 .i512) ∧
    decode (word 0b00 0b1000 0b10 0b1 0b0 0b110101) = .ok (.cvtfromSat .s256 .u128) := by
  decide +kernel

theorem test_decode_codec :
    decode (word 0b00 0b0000 0b00 0b0 0b1 0b111000) = .ok (.wrbe .u512) ∧
    decode (word 0b00 0b0000 0b00 0b1 0b0 0b111001) = .ok (.wrle .s256) ∧
    decode (word 0b00 0b0001 0b00 0b1 0b0 0b111010) = .ok (.rdbe .s256 true) ∧
    decode (word 0b00 0b0000 0b00 0b0 0b1 0b111011) = .ok (.rdle .u512 false) := by
  decide +kernel

/-- The table's numbering: one 16-bit word, its least significant bit is bit 0 (R60). -/
theorem test_decodeTableWord :
    decodeTableWord 16 0x1EB4 = some (.cvttoSat .s256 .i64) ∧ decodeTableWord 16 0x4008 = none := by decide +kernel

/-- The word that withFetchWord places is the word the next step reads, from reset and with a request in flight. -/
theorem test_withFetchWord :
    step (State.reset.withFetchWord 16 0x0023) = exec (.not .u256) (State.reset.withFetchWord 16 0x0023) ∧
    commandWord (State.withFetchWord ⟨[⟨0x0008, 5, 7⟩], []⟩ 16 0x0009) = some 0x0009 := ⟨rfl, by decide +kernel⟩

/-! ### WellFormed: an ill-formed term for each check -/

/-- RSV = 01 (R66 item 1). -/
theorem test_refuses_rsv : (fieldsOf (word 0b01 0 0 0 0 0b001000)).rsvOk = false := by decide +kernel
/-- OPC 0x12 is not assigned (R66 item 2). -/
theorem test_refuses_opc : (fieldsOf (word 0 0 0 0 0 0b010010)).opcOk = false := by decide +kernel
/-- BMUL has no checked policy, ADD no saturating one, and POL = 11 is no policy (R66 item 3). -/
theorem test_refuses_pol :
    (fieldsOf (word 0 0 0b01 0 0 0b010001)).polOk = false ∧ (fieldsOf (word 0 0 0b10 0 0 0b001000)).polOk = false ∧
    (fieldsOf (word 0 0 0b11 0 0 0b110100)).polOk = false := by decide +kernel
/-- ADD with a KIND (R66 item 4). -/
theorem test_refuses_kind : (fieldsOf (word 0 0b0001 0 0 0 0b001000)).kindOk = false := by decide +kernel
/-- RDBE with KIND = 2 (R66 item 5). -/
theorem test_refuses_readKind : (fieldsOf (word 0 0b0010 0 0 0 0b111010)).readKindOk = false := by decide +kernel
/-- KIND 14 and 15 on a conversion are well formed (R66). -/
theorem test_admits_unmapped_kind : (fieldsOf (word 0 0b1111 0b10 0 0 0b110101)).wellFormed = true := by decide +kernel

/-- A repeated label, a reference to a line that has not been made, a number no port carries: each refused; without
them the program is well formed (R70). -/
theorem test_program_wellFormed :
    Program.wellFormed [⟨1, .inc .u256, .num 4, .num 0⟩, ⟨1, .inc .u256, .num 4, .num 0⟩] = false ∧
    Program.wellFormed [⟨1, .inc .u256, .fieldR 2, .num 0⟩, ⟨2, .inc .u256, .num 4, .num 0⟩] = false ∧
    Program.wellFormed [⟨1, .inc .u256, .num (2 ^ 512), .num 0⟩] = false ∧
    Program.wellFormed [⟨1, .bmul .u256, .num 4, .max⟩, ⟨2, .add .u256, .fieldR 1, .fieldRH 1⟩] = true := by
  decide +kernel

/-! ### Responses, from the vectors of 95_test_vectors.md -/

/-- A number as a 512-bit field. -/
def at512 (n : Nat) : Port := BitVec.ofNat 512 n

/-- One step on a state with the one request (cmd, a, b) in flight gives the response `r` and leaves nothing in flight. -/
def answers (cmd a b : Nat) (r : Response) : Bool :=
  match step ⟨[⟨BitVec.ofNat 16 cmd, at512 a, at512 b⟩], []⟩ with
  | .next t => decide (t = ⟨[], [r]⟩)
  | .fault _ => false
  | .refused _ => false

/-- V3, V2. -/
theorem test_cat :
    answers 0x0001 (2 ^ 128 + 5) (2 ^ 128 + 7) (.value { r := at512 (5 * 2 ^ 128 + 7) }) = true ∧
    answers 0x0041 (2 ^ 256 - 1) 0 (.value { r := at512 (2 ^ 512 - 2 ^ 256) }) = true := by decide +kernel

/-- V7, V9. -/
theorem test_upr :
    answers 0x00C2 (2 ^ 512 - 1) 0 (.value { r := at512 (2 ^ 256 - 1) }) = true ∧
    answers 0x0002 (2 ^ 300 + 2 ^ 200) 0 (.value { r := at512 (2 ^ 72) }) = true := by decide +kernel

/-- V6. -/
theorem test_lwr :
    answers 0x0003 (2 ^ 128 + 2) 0 (.value { r := at512 2 }) = true := by decide +kernel

/-- V12, V17. -/
theorem test_add :
    answers 0x0008 (2 ^ 256 - 1) (2 ^ 256 - 1) (.value { r := at512 (2 ^ 256 - 2), c := true }) = true ∧
    answers 0x0088 (2 ^ 255 - 1) 1 (.value { r := at512 (2 ^ 255) }) = true := by decide +kernel

/-- V18, V16. -/
theorem test_addC :
    answers 0x0188 (2 ^ 255 - 1) 1 (.error .overflow) = true ∧
    answers 0x0108 (2 ^ 256 - 1 - 1) 1 (.value { r := at512 (2 ^ 256 - 1) }) = true := by decide +kernel

/-- V24, V28. -/
theorem test_sub :
    answers 0x0009 0 1 (.value { r := at512 (2 ^ 256 - 1), c := true }) = true ∧
    answers 0x0049 (2 ^ 448) 1 (.value { r := at512 (2 ^ 448 - 1) }) = true := by decide +kernel

/-- V29, V26. -/
theorem test_subC :
    answers 0x0189 (2 ^ 255) 1 (.error .overflow) = true ∧
    answers 0x0189 0 1 (.value { r := at512 (2 ^ 256 - 1), c := true }) = true := by decide +kernel

/-- V35, V38. -/
theorem test_neg :
    answers 0x008A (2 ^ 255) 0 (.value { r := at512 (2 ^ 255), c := true }) = true ∧
    answers 0x000A 1 0 (.value { r := at512 (2 ^ 256 - 1), c := true }) = true := by decide +kernel

/-- V36, V40. -/
theorem test_negC :
    answers 0x018A (2 ^ 255) 0 (.error .overflow) = true ∧
    answers 0x010A 0 0 (.value {}) = true := by decide +kernel

/-- V42, V46. -/
theorem test_inc :
    answers 0x000B (2 ^ 256 - 1) 0 (.value { c := true }) = true ∧
    answers 0x008B (2 ^ 255 - 1) 0 (.value { r := at512 (2 ^ 255) }) = true := by decide +kernel

/-- V43, V45. -/
theorem test_incC :
    answers 0x010B (2 ^ 256 - 1) 0 (.error .overflow) = true ∧
    answers 0x018B (2 ^ 512 - 1) 0 (.value { c := true }) = true := by decide +kernel

/-- V48, V52. -/
theorem test_dec :
    answers 0x000C 0 0 (.value { r := at512 (2 ^ 256 - 1), c := true }) = true ∧
    answers 0x008C (2 ^ 255) 0 (.value { r := at512 (2 ^ 255 - 1) }) = true := by decide +kernel

/-- V51, V50. -/
theorem test_decC :
    answers 0x018C (2 ^ 255) 0 (.error .overflow) = true ∧
    answers 0x018C 0 0 (.value { r := at512 (2 ^ 256 - 1), c := true }) = true := by decide +kernel

/-- V65, V72. -/
theorem test_mul :
    answers 0x0010 (2 ^ 256 - 1) (2 ^ 256 - 1) (.value { r := at512 1 }) = true ∧
    answers 0x0090 (2 ^ 255) (2 ^ 512 - 1) (.value { r := at512 (2 ^ 255) }) = true := by decide +kernel

/-- V71, V75. -/
theorem test_mulC :
    answers 0x0190 (2 ^ 255) (2 ^ 512 - 1) (.error .overflow) = true ∧
    answers 0x0190 (2 ^ 127) (2 ^ 512 - (2 ^ 128)) (.value { r := at512 (2 ^ 255) }) = true := by decide +kernel

/-- V83, V84. -/
theorem test_bmul :
    answers 0x0091 (2 ^ 512 - 1) 2 (.value { r := at512 (2 ^ 256 - 2), rh := at512 (2 ^ 256 - 1) }) = true ∧
    answers 0x0091 (2 ^ 255) (2 ^ 255) (.value { rh := at512 (2 ^ 254) }) = true := by decide +kernel

/-- V116, V97. -/
theorem test_div :
    answers 0x00D8 (2 ^ 512 - (2 ^ 300)) (2 ^ 100) (.value { r := at512 (2 ^ 512 - 2 ^ 200) }) = true ∧
    answers 0x0018 5 0 (.error .divideByZero) = true := by decide +kernel

/-- V90 under POL = 1, which gives the same response (R142). -/
theorem test_divC :
    answers 0x0118 100 7 (.value { r := at512 14 }) = true := by decide +kernel

/-- V117, V98. -/
theorem test_rem :
    answers 0x0099 (2 ^ 512 - 100) 7 (.value { r := at512 (2 ^ 256 - 2) }) = true ∧
    answers 0x00D9 0 0 (.error .divideByZero) = true := by decide +kernel

/-- V91 under POL = 1, which gives the same response (R142). -/
theorem test_remC :
    answers 0x0119 100 7 (.value { r := at512 2 }) = true := by decide +kernel

/-- V94, V112. -/
theorem test_divrem :
    answers 0x009A (2 ^ 512 - 7) 2 (.value { r := at512 (2 ^ 256 - 3), rh := at512 (2 ^ 256 - 1) }) = true ∧
    answers 0x001A (2 ^ 200 + 12345) (2 ^ 64 + 1) (.value { r := at512 (2 ^ 136 - 2 ^ 72 + 2 ^ 8), rh := at512 12089 }) =
      true := by decide +kernel

/-- V92 under POL = 1, which gives the same response (R142); V99. -/
theorem test_divremC :
    answers 0x011A 100 7 (.value { r := at512 14, rh := at512 2 }) = true ∧
    answers 0x011A 0 0 (.error .divideByZero) = true := by decide +kernel

/-- V126. -/
theorem test_and :
    answers 0x00A0 (2 ^ 512 - 1) (2 ^ 255 + 2 ^ 64) (.value { r := at512 (2 ^ 255 + 2 ^ 64) }) = true := by decide +kernel

/-- V121. -/
theorem test_or :
    answers 0x0021 0xFF00 0x0FF0 (.value { r := at512 0xFFF0 }) = true := by decide +kernel

/-- V127. -/
theorem test_xor :
    answers 0x0062 (2 ^ 512 - 1) (2 ^ 511) (.value { r := at512 (2 ^ 511 - 1) }) = true := by decide +kernel

/-- V125. -/
theorem test_not :
    answers 0x0023 (2 ^ 300) 0 (.value { r := at512 (2 ^ 256 - 1) }) = true := by decide +kernel

/-- V131, V133. -/
theorem test_shl :
    answers 0x0024 (2 ^ 256 - 1) 65 (.value { r := at512 (2 ^ 256 - 2 ^ 65) }) = true ∧
    answers 0x0024 1 (2 ^ 512 - 1) (.value { r := at512 (2 ^ 255) }) = true := by decide +kernel

/-- V139, V136. -/
theorem test_shr :
    answers 0x00A5 (2 ^ 255) 64 (.value { r := at512 (2 ^ 256 - 2 ^ 191) }) = true ∧
    answers 0x0025 (2 ^ 256 - 8) 1 (.value { r := at512 (2 ^ 255 - 4) }) = true := by decide +kernel

/-- V143, V145. -/
theorem test_shrl :
    answers 0x00A6 (2 ^ 512 - 1) 255 (.value { r := at512 1 }) = true ∧
    answers 0x0026 (2 ^ 200 + 2 ^ 100) 100 (.value { r := at512 (2 ^ 100 + 1) }) = true := by decide +kernel

/-- V149, V151. -/
theorem test_rol :
    answers 0x0027 (2 ^ 255 + 1) 4 (.value { r := at512 0x18 }) = true ∧
    answers 0x0027 0x0123456789ABCDEF 64 (.value { r := at512 (0x0123456789ABCDEF * 2 ^ 64) }) = true := by decide +kernel

/-- V153, V154. -/
theorem test_ror :
    answers 0x00E8 1 513 (.value { r := at512 (2 ^ 511) }) = true ∧
    answers 0x0028 0x18 4 (.value { r := at512 (2 ^ 255 + 1) }) = true := by decide +kernel

/-- V159, V157. -/
theorem test_lzc :
    answers 0x0069 (2 ^ 256) 0 (.value { r := at512 255 }) = true ∧
    answers 0x0029 0 0 (.value { r := at512 256 }) = true := by decide +kernel

/-- V165, V163. -/
theorem test_tzc :
    answers 0x006A (2 ^ 256) 0 (.value { r := at512 256 }) = true ∧
    answers 0x002A 0 0 (.value { r := at512 256 }) = true := by decide +kernel

/-- V171, V167. -/
theorem test_popc :
    answers 0x002B (2 ^ 300 + 1) 0 (.value { r := at512 1 }) = true ∧
    answers 0x002B (2 ^ 256 - 1) 0 (.value { r := at512 256 }) = true := by decide +kernel

/-- V184, V191. -/
theorem test_cmp :
    answers 0x00B0 (2 ^ 512 - 1) 1 (.value { ord := 1 }) = true ∧
    answers 0x0030 (2 ^ 256 + 1) 1 (.value {}) = true := by decide +kernel

/-- V217, V221. -/
theorem test_cvtto :
    answers 0x34B4 (2 ^ 512 - 1) 0 (.value { r := at512 (2 ^ 512 - 1) }) = true ∧
    answers 0x2874 (2 ^ 300 + 7) 0 (.value { r := at512 7 }) = true := by decide +kernel

/-- V225, V226. -/
theorem test_cvttoC :
    answers 0x2DF4 (2 ^ 512 - (2 ^ 255)) 0 (.value { r := at512 (2 ^ 255) }) = true ∧
    answers 0x2DF4 (2 ^ 512 - (2 ^ 255) - 1) 0 (.error .overflow) = true := by decide +kernel

/-- V208, V216. -/
theorem test_cvttoSat :
    answers 0x1EB4 (2 ^ 100) 0 (.value { r := at512 (2 ^ 63 - 1) }) = true ∧
    answers 0x2E34 (2 ^ 255) 0 (.value { r := at512 (2 ^ 255 - 1) }) = true := by decide +kernel

/-- V234, V239. -/
theorem test_cvtfrom :
    answers 0x04B5 0x1FF 0 (.value { r := at512 (2 ^ 256 - 1) }) = true ∧
    answers 0x30B5 (2 ^ 300 + 2 ^ 255) 0 (.value { r := at512 (2 ^ 255) }) = true := by decide +kernel

/-- V236, V240. -/
theorem test_cvtfromC :
    answers 0x25B5 (2 ^ 127) 0 (.value { r := at512 (2 ^ 256 - 2 ^ 127) }) = true ∧
    answers 0x3135 (2 ^ 256) 0 (.error .overflow) = true := by decide +kernel

/-- V241, V232. -/
theorem test_cvtfromSat :
    answers 0x36B5 (2 ^ 511) 0 (.value { r := at512 (2 ^ 255) }) = true ∧
    answers 0x0635 0xFF 0 (.value {}) = true := by decide +kernel

/-- V250, V251. -/
theorem test_wrbe :
    answers 0x0038 0x0102 32 (.value { r := at512 (0x01 * 2 ^ 240 + 0x02 * 2 ^ 248), t := true }) = true ∧
    answers 0x0038 0x0102 31 (.value {}) = true := by decide +kernel

/-- V254, V253. -/
theorem test_wrle :
    answers 0x0079 12345 64 (.value { r := at512 12345, t := true }) = true ∧
    answers 0x0079 12345 63 (.value {}) = true := by decide +kernel

/-- V277, V268. -/
theorem test_rdbe :
    answers 0x00FA 0x0080 2 (.value { r := at512 (2 ^ 512 - 2 ^ 15), t := true }) = true ∧
    answers 0x043A 12345 0 (.value { t := true }) = true := by decide +kernel

/-- V273, V275. -/
theorem test_rdle :
    answers 0x00BB (2 ^ 264 - 2 ^ 255 - 1) 33 (.value {}) = true ∧
    answers 0x043B 5 65 (.error .illegalRequest) = true := by decide +kernel

/-- The illegal words of 95_test_vectors.md section 4 whose rejections differ, and a request with illegal CMD and a zero divisor:
the command comes first (R248). -/
theorem test_illegal :
    answers 0x4008 5 7 (.error .illegalRequest) = true ∧ answers 0x0000 5 7 (.error .illegalRequest) = true ∧
    answers 0x0120 5 7 (.error .illegalRequest) = true ∧ answers 0x0408 5 7 (.error .illegalRequest) = true ∧
    answers 0x083A 5 1 (.error .illegalRequest) = true ∧ answers 0x0218 5 0 (.error .illegalRequest) = true := by
  decide +kernel

/-- The texts of R70: no policy suffix for wrapping, C, SAT, the type, the kind or the extension. -/
theorem test_asmText :
    asmText (.addC .s512) = "ADD.C.S512" ∧ asmText (.cvttoSat .s256 .i64) = "CVTTO.SAT.S256.I64" ∧
    asmText (.rdbe .s256 true) = "RDBE.S256.ZX" := by decide +kernel

/-! ### Witnesses: the hypotheses of the statements are met -/

/-- A request and a response of it, by the meaning. -/
theorem returns_of {i : Instr} {q : Request} {r : Response} (h : meaning i q = r) : Responds i q r :=
  (responds_iff i q r).2 h

theorem test_witness_EncodeOfDecode : decode 0x0575 = .ok (.cvtfromC .u512 .i8) := by decide +kernel

theorem test_witness_IllegalCommandAnswersIllegalRequest :
    (fieldsOf 0x4008).wellFormed = false ∧ (fieldsOf 0x3434).wellFormed = true ∧
    ((fieldsOf 0x3834).wellFormed = true ∧ (fieldsOf 0x3834).opc.toNat ∈ conversionOpcodes ∧
      14 ≤ (fieldsOf 0x3834).kind.toNat) := by decide +kernel

/-- Each of the five rejections happens. -/
theorem test_witness_DecoderChecksInOrder :
    decode 0xC000 = .error .reservedBits ∧ decode 0x0712 = .error .unassignedOpcode ∧
    decode 0x0608 = .error .policyNotAllowed ∧ decode 0x0508 = .error .kindNotZero ∧
    decode 0x083B = .error .readKindReserved := by decide +kernel

theorem test_witness_StepRunsDecodedInstruction : decode 0x0108 = .ok (.addC .u256) := by decide +kernel

theorem test_witness_ResetDropsTransactionsInFlight : UnitResponds ⟨0x0008, 5, 7⟩ (.value { r := 12 }) := by
  intro rest given
  have hd : decode 0x0008 = .ok (.add .u256) := by decide +kernel
  have hm : meaning (.add .u256) ⟨0x0008, 5, 7⟩ = .value { r := 12 } := by decide +kernel
  simp only [step, commandWord, List.head?_cons, Option.map_some, hd, exec_eq_transact, transact_cons, hm]

/-- A legal state that steps: one response given, one request in flight. -/
theorem test_witness_StepKeepsResponsesLegal :
    State.Legal ⟨[⟨0x0008, 5, 7⟩], [.error .overflow]⟩ ∧
    step ⟨[⟨0x0008, 5, 7⟩], [.error .overflow]⟩ = .next ⟨[], [.error .overflow] ++ [.value { r := 12 }]⟩ :=
  ⟨by simp [State.Legal, responseLegal], test_witness_ResetDropsTransactionsInFlight _ _⟩

/-- Every pair that canRaise admits, one of each sort. -/
theorem test_witness_OnlyListedErrorsAreRaised :
    Raises (.addC .u256) (ports (at512 (2 ^ 256 - 1)) 1) .overflow ∧ Raises (.rem .s512) (ports 5 0) .divideByZero ∧
    Raises (.cvtto .u256 .none14) (ports 5 0) .unsupportedConversion ∧
    Raises (.rdle .u256 true) (ports 5 65) .illegalRequest :=
  ⟨returns_of (by decide +kernel), returns_of (by decide +kernel), returns_of (by decide +kernel),
    returns_of (by decide +kernel)⟩

/-- Two requests that differ above the bits ADD.U256 reads. -/
theorem test_witness_IgnoredPortBitsDoNotMatter :
    ports 5 7 ≠ ports (at512 (2 ^ 256 + 5)) (at512 (2 ^ 300 + 7)) ∧
    (5 : Port).setWidth (bitsReadA 7 (.add .u256)) = (at512 (2 ^ 256 + 5)).setWidth (bitsReadA 7 (.add .u256)) ∧
    (7 : Port).setWidth (bitsReadB (.add .u256)) = (at512 (2 ^ 300 + 7)).setWidth (bitsReadB (.add .u256)) ∧
    Responds (.add .u256) (ports 5 7) (.value { r := 12 }) :=
  ⟨by decide +kernel, by decide +kernel, by decide +kernel, returns_of (by decide +kernel)⟩

/-- A half on R and a remainder on RH, with the first bit above each. -/
theorem test_witness_ResultsAreZeroExtended :
    Returns (.upr .u256) (ports (at512 (2 ^ 128)) 0) { r := 1 } ∧ resultBits (.upr .u256) ≤ 128 ∧
    Returns (.divrem .u256) (ports 100 7) { r := 14, rh := 2 } ∧ (Instr.divrem .u256).ty.bits ≤ 256 :=
  ⟨returns_of (by decide +kernel), by decide, returns_of (by decide +kernel), by decide⟩

theorem test_witness_SignBitDoesNotMatter : (Instr.cat ∈ signBlind) := by simp [signBlind]

/-- A divisor of zero, and the least nonzero one. -/
theorem test_witness_ZeroDivisorRaises :
    operandB .s512 (ports 5 0) = 0 ∧ Raises (.divremC .s512) (ports 5 0) .divideByZero ∧
    operandB .u256 (ports 5 (at512 (2 ^ 256))) = 0 ∧ operandB .u256 (ports 5 1) ≠ 0 :=
  ⟨by decide +kernel, returns_of (by decide +kernel), by decide +kernel, by decide +kernel⟩

/-- MIN by minus one exists in both signed types. -/
theorem test_witness_MinByMinusOne :
    (Ty.s256.signed = true ∧ operandA .s256 (ports (at512 (2 ^ 255)) (at512 (2 ^ 512 - 1))) = minPattern .s256 ∧
      operandB .s256 (ports (at512 (2 ^ 255)) (at512 (2 ^ 512 - 1))) = BitVec.allOnes Ty.s256.bits) ∧
    (Ty.s512.signed = true ∧ operandA .s512 (ports (at512 (2 ^ 511)) (at512 (2 ^ 512 - 1))) = minPattern .s512 ∧
      operandB .s512 (ports (at512 (2 ^ 511)) (at512 (2 ^ 512 - 1))) = BitVec.allOnes Ty.s512.bits) := by
  decide +kernel

/-- MIN by one and MIN by minus two, next to the excluded pair; and an unsigned pair with the same patterns. -/
theorem test_witness_DivisionTruncatesTowardZero :
    (operandB .s256 (ports (at512 (2 ^ 255)) 1) ≠ 0 ∧
      operandB .s256 (ports (at512 (2 ^ 255)) 1) ≠ BitVec.allOnes Ty.s256.bits) ∧
    (operandB .s256 (ports (at512 (2 ^ 255)) (at512 (2 ^ 512 - 2))) ≠ 0 ∧
      operandB .s256 (ports (at512 (2 ^ 255)) (at512 (2 ^ 512 - 2))) ≠ BitVec.allOnes Ty.s256.bits) ∧
    (operandB .u256 (ports (at512 (2 ^ 255)) (at512 (2 ^ 512 - 1))) ≠ 0 ∧ Ty.u256.signed = false) := by
  decide +kernel

theorem test_witness_DivisionIdentityHolds : Returns (.divrem .u512) (ports 100 7) { r := 14, rh := 2 } :=
  returns_of (by decide +kernel)

/-- V94: minus seven by two. -/
theorem test_witness_MagnitudeDivisionGivesSigned :
    Ty.s256.signed = true ∧ Returns (.divrem .s256) (ports (at512 (2 ^ 512 - 7)) 2)
      { r := at512 (2 ^ 256 - 3), rh := at512 (2 ^ 256 - 1) } :=
  ⟨rfl, returns_of (by decide +kernel)⟩

/-- The least and the greatest divisor of one limb. -/
theorem test_witness_ShortAndRestoringDivisionDivide :
    (0 < 1 ∧ 1 < 2 ^ 64) ∧ (0 < 2 ^ 64 - 1 ∧ 2 ^ 64 - 1 < 2 ^ 64) := by decide

/-- A nonzero divisor for each path of the divider at 256 bits, with what the path gives: one limb (R146), both operands in
the lower half (R147), dominance by less and by equality (R148), the slow path (V114, R149). -/
theorem test_witness_EveryDividePathAgrees :
    (∀ d ∈ [2 ^ 60, 2 ^ 64 + 1, 2 ^ 200, 2 ^ 128 + 1], BitVec.ofNat (128 * 2 ^ 1) d ≠ 0) ∧
    divideByPaths 1 (BitVec.ofNat _ (2 ^ 200 + 100)) (BitVec.ofNat _ (2 ^ 60)) = (2 ^ 140, 100) ∧
    divideByPaths 1 (BitVec.ofNat _ (2 ^ 127)) (BitVec.ofNat _ (2 ^ 64 + 1)) = (2 ^ 63 - 1, 2 ^ 64 - 2 ^ 63 + 1) ∧
    divideByPaths 1 (BitVec.ofNat _ 5) (BitVec.ofNat _ (2 ^ 200)) = (0, 5) ∧
    divideByPaths 1 (BitVec.ofNat _ (2 ^ 200)) (BitVec.ofNat _ (2 ^ 200)) = (1, 0) ∧
    divideByPaths 1 (BitVec.ofNat _ (2 ^ 256 - 1)) (BitVec.ofNat _ (2 ^ 128 + 1)) = (2 ^ 128 - 1, 0) := by
  decide +kernel

/-- The largest and the smallest one bit of 12 are bits 3 and 2; of 2^255, bit 255 both; and 0 has none. -/
theorem test_witness_CountsCountBits :
    (operandA .u256 (ports 12 0)).getLsbD 3 = true ∧
    (∀ k : Nat, 3 < k → (operandA .u256 (ports 12 0)).getLsbD k = false) ∧
    (operandA .u256 (ports 12 0)).getLsbD 2 = true ∧
    (∀ k : Nat, k < 2 → (operandA .u256 (ports 12 0)).getLsbD k = false) ∧
    (operandA .u256 (ports (at512 (2 ^ 255)) 0)).getLsbD 255 = true ∧
    (∀ k : Nat, k < 255 → (operandA .u256 (ports (at512 (2 ^ 255)) 0)).getLsbD k = false) ∧
    (∀ k : Nat, 255 < k → (operandA .u256 (ports (at512 (2 ^ 255)) 0)).getLsbD k = false) ∧
    operandA .u256 (ports 0 0) = 0 := by
  have low : ∀ k : Nat, k < 256 → 3 < k → (operandA .u256 (ports 12 0)).getLsbD k = false := by decide +kernel
  refine ⟨by decide +kernel, fun k h => ?_, by decide +kernel, by decide +kernel, by decide +kernel, by decide +kernel,
    fun k h => ?_, by decide +kernel⟩
  · by_cases hk : k < 256
    · exact low k hk h
    · exact BitVec.getLsbD_of_ge _ _ (Nat.le_of_not_lt hk)
  · exact BitVec.getLsbD_of_ge _ _ h

/-- A kind with a mapping. -/
theorem test_witness_TruncatingConversionExtends : kindBits .i8 = some 8 ∧ kindBits .u512 = some 512 := by decide

theorem test_witness_UnmappedKindsAreUnsupported :
    Raises (.cvttoSat .s512 .none14) (ports 5 0) .unsupportedConversion ∧
    Raises (.cvtfrom .u256 .none15) (ports 5 0) .unsupportedConversion :=
  ⟨returns_of (by decide +kernel), returns_of (by decide +kernel)⟩

/-- 200 to U8 and back. -/
theorem test_witness_CheckedConversionRoundTrip :
    Returns (.cvttoC .s256 .u8) (ports 200 0) { r := 200 } ∧
    Returns (.cvtfromC .s256 .u8) (ports 200 0) { r := 200 } :=
  ⟨returns_of (by decide +kernel), returns_of (by decide +kernel)⟩

/-- The integer m of R227 for the two source bytes 0x01, 0x02; and for 64 and 65 bytes of zeros. -/
theorem test_witness_BigEndianReadsFit :
    (∃ m : BitVec (8 * (2 : Port).toNat), ∀ i : Nat, i < (2 : Port).toNat →
      byte m ((2 : Port).toNat - 1 - i) = byte (at512 0x0201) i) ∧
    (∃ m : BitVec (8 * (64 : Port).toNat), ∀ i : Nat, i < (64 : Port).toNat →
      byte m ((64 : Port).toNat - 1 - i) = byte (0 : Port) i) ∧
    (∃ m : BitVec (8 * (65 : Port).toNat), ∀ i : Nat, i < (65 : Port).toNat →
      byte m ((65 : Port).toNat - 1 - i) = byte (0 : Port) i) :=
  ⟨⟨BitVec.ofNat _ 0x0102, by decide +kernel⟩, ⟨BitVec.ofNat _ 0, by decide +kernel⟩,
    ⟨BitVec.ofNat _ 0, by decide +kernel⟩⟩

/-- The ends of the ranges of the codec: lengths 64 and 65 (R226), capacities 31 and 32 (R221), and a number that does not
fit its type. -/
theorem test_witness_codec_clauses :
    answers 0x043B 0 64 (.value { t := true }) = true ∧ answers 0x043A 0 64 (.value { t := true }) = true ∧
    answers 0x043A 0 65 (.error .illegalRequest) = true ∧ answers 0x003A 255 1 (.value {}) = true ∧
    answers 0x0039 7 31 (.value {}) = true ∧ answers 0x0039 7 32 (.value { r := 7, t := true }) = true := by
  decide +kernel

/-- A list whose second line divides by zero: the third line is not made. -/
theorem test_witness_ListStopsAtFirstError :
    runProgram [⟨1, .add .u256, .num 5, .num 7⟩, ⟨2, .div .u256, .fieldR 1, .num 0⟩, ⟨3, .add .u256, .num 1, .num 1⟩] =
      [(1, .value { r := 12 })] ++ (2, .error .divideByZero) :: [] := by decide +kernel

end Sys2Proof.Tests
end

