-- ==== Sys2Proof/Proofs/UnitState.lean ====
section
/-! PROOFS. What one step does to the oldest request, by what its command word decodes to (R66, R275), and from it that
every request is answered from itself alone (R20). -/

namespace Sys2Proof.Proofs

open Sys2Proof Sys2Proof.Machine

/-- A legal command word: the step is the instruction it decodes to. -/
theorem step_of_decode_ok {q : Request} {i : Instr} (hd : decode q.cmd = .ok i) (rest : List Request)
    (given : List Response) : step ⟨q :: rest, given⟩ = exec i ⟨q :: rest, given⟩ := by
  simp only [step, commandWord, List.head?_cons, Option.map_some, hd]

/-- An illegal command word: whatever the rejection, the step answers it as illegal (R66). -/
theorem step_of_decode_error {q : Request} {e : Reject} (hd : decode q.cmd = .error e) (rest : List Request)
    (given : List Response) : step ⟨q :: rest, given⟩ = answerIllegal ⟨q :: rest, given⟩ := by
  simp only [step, commandWord, List.head?_cons, Option.map_some, hd]

/-- The unit's response to a request with a legal command word is the meaning of its instruction. -/
theorem unitResponds_meaning {q : Request} {i : Instr} (hd : decode q.cmd = .ok i) : UnitResponds q (meaning i q) :=
  fun rest given => by rw [step_of_decode_ok hd, exec_eq_transact, transact_cons]

/-- The unit's response to a request with an illegal command word is IllegalRequest, whatever its ports hold. -/
theorem unitResponds_illegalRequest {q : Request} {e : Reject} (hd : decode q.cmd = .error e) :
    UnitResponds q (.error .illegalRequest) :=
  fun rest given => by rw [step_of_decode_error hd, answerIllegal_cons]

/-- Settles O9: a command word decodes or is rejected, and either way the response is fixed by the request. -/
theorem everyRequestIsAnsweredFromItself : Obligations.EveryRequestIsAnsweredFromItself := by
  unfold Obligations.EveryRequestIsAnsweredFromItself
  intro q
  cases hd : decode q.cmd with
  | ok i => exact ⟨meaning i q, unitResponds_meaning hd⟩
  | error e => exact ⟨.error .illegalRequest, unitResponds_illegalRequest hd⟩

end Sys2Proof.Proofs
end

/-! PROOFS. The decoder rejects a command word by the first of the five checks of R66 that it fails, in the order of R69,
and the unit's response to a legal and to an illegal word follows from it. -/

namespace Sys2Proof.Proofs

open Sys2Proof Sys2Proof.Machine

/-! ### The first check that fails -/

/-- The first of R66's checks, in the order of R69, that the fields fail; none for a legal command. -/
def firstFailed (f : Fields) : Option Reject :=
  if f.rsvOk = false then some .reservedBits
  else if f.opcOk = false then some .unassignedOpcode
  else if f.polOk = false then some .policyNotAllowed
  else if f.kindOk = false then some .kindNotZero
  else if f.readKindOk = false then some .readKindReserved
  else none

theorem firstFailed_eq_reservedBits_iff (f : Fields) : firstFailed f = some .reservedBits ↔ f.rsvOk = false := by
  unfold firstFailed
  split_ifs <;> simp_all

theorem firstFailed_eq_unassignedOpcode_iff (f : Fields) :
    firstFailed f = some .unassignedOpcode ↔ f.rsvOk = true ∧ f.opcOk = false := by
  unfold firstFailed
  split_ifs <;> simp_all

theorem firstFailed_eq_policyNotAllowed_iff (f : Fields) :
    firstFailed f = some .policyNotAllowed ↔ f.rsvOk = true ∧ f.opcOk = true ∧ f.polOk = false := by
  unfold firstFailed
  split_ifs <;> simp_all

theorem firstFailed_eq_kindNotZero_iff (f : Fields) :
    firstFailed f = some .kindNotZero ↔ f.rsvOk = true ∧ f.opcOk = true ∧ f.polOk = true ∧ f.kindOk = false := by
  unfold firstFailed
  split_ifs <;> simp_all

theorem firstFailed_eq_readKindReserved_iff (f : Fields) :
    firstFailed f = some .readKindReserved ↔
      f.rsvOk = true ∧ f.opcOk = true ∧ f.polOk = true ∧ f.kindOk = true ∧ f.readKindOk = false := by
  unfold firstFailed
  split_ifs <;> simp_all

theorem firstFailed_eq_none_iff (f : Fields) : firstFailed f = none ↔ f.wellFormed = true := by
  unfold firstFailed Fields.wellFormed
  split_ifs <;> simp_all

/-! ### What the opcode map checks -/

/-- The rejection a decoder's result gives, if it is one. -/
def rejection : Except Reject Instr → Option Reject
  | .error e => some e
  | .ok _ => none

theorem eq_error_iff_rejection (r : Except Reject Instr) (e : Reject) : r = .error e ↔ rejection r = some e := by
  cases r <;> simp [rejection]

theorem exists_ok_iff_rejection (r : Except Reject Instr) : (∃ i, r = .ok i) ↔ rejection r = none := by
  cases r <;> simp [rejection]

/-- KIND bits 13:11 are zero exactly for the codes 0 and 1 (R66 item 5). -/
theorem kind_upper_bits_eq_zero_iff (k : BitVec 4) : k.extractLsb' 1 3 = 0#3 ↔ k.toNat ≤ 1 := by
  revert k
  decide

/-- The policies of a conversion (R64). -/
theorem pol_toNat_le_two_iff (p : BitVec 2) : p.toNat ≤ 2 ↔ p = 0 ∨ p = 1 ∨ p = 2 := by
  revert p
  decide

/-- A result of the opcode map: one of the five forms a row of it takes, with what the checks of R66 come to in a row of
that form. -/
inductive RowResult (f : Fields) : Except Reject Instr → Prop
  | unassigned (hopc : f.opcOk = false) : RowResult f (.error .unassignedOpcode)
  | noPolicy (i : Instr) (hopc : f.opcOk = true) (hpol : f.polOk = true ↔ f.pol = 0)
      (hkind : f.kindOk = true ↔ f.kind = 0) (hread : f.readKindOk = true) : RowResult f (noPolicy f i)
  | twoPolicies (i j : Instr) (hopc : f.opcOk = true) (hpol : f.polOk = true ↔ f.pol = 0 ∨ f.pol = 1)
      (hkind : f.kindOk = true ↔ f.kind = 0) (hread : f.readKindOk = true) : RowResult f (twoPolicies f i j)
  | threePolicies (i j k : Kind → Instr) (hopc : f.opcOk = true)
      (hpol : f.polOk = true ↔ f.pol = 0 ∨ f.pol = 1 ∨ f.pol = 2)
      (hkind : f.kindOk = true) (hread : f.readKindOk = true) : RowResult f (threePolicies f i j k)
  | codecRead (i : Bool → Instr) (hopc : f.opcOk = true) (hpol : f.polOk = true ↔ f.pol = 0) (hkind : f.kindOk = true)
      (hread : f.readKindOk = true ↔ f.kind.extractLsb' 1 3 = 0) : RowResult f (codecRead f i)

/-- Every row of the opcode map has one of the five forms (R64, R65, R67): the form is read off the map, and what its checks
come to, off the lists of R66 for the row's operation code. -/
theorem decodeOperation_rowResult (f : Fields) (ty : Ty) : RowResult f (decodeOperation f ty) := by
  unfold decodeOperation
  split <;> constructor <;>
    simp_all [Fields.opcOk, Fields.polOk, Fields.kindOk, Fields.readKindOk, assignedOpcodes, checkedOpcodes,
      conversionOpcodes, codecReadOpcodes, kind_upper_bits_eq_zero_iff, pol_toNat_le_two_iff]

/-- A row of any form rejects by the first check that fails. -/
theorem RowResult.rejection_eq {f : Fields} {r : Except Reject Instr} (h : RowResult f r) (hrsv : f.rsvOk = true) :
    rejection r = firstFailed f := by
  cases h with
  | unassigned hopc => simp [rejection, firstFailed, hrsv, hopc]
  | noPolicy i hopc hpol hkind hread =>
    grind [rejection, firstFailed, Sys2Proof.noPolicy]
  | twoPolicies i j hopc hpol hkind hread =>
    grind [rejection, firstFailed, Sys2Proof.twoPolicies]
  | threePolicies i j k hopc hpol hkind hread =>
    grind [rejection, firstFailed, Sys2Proof.threePolicies]
  | codecRead i hopc hpol hkind hread =>
    grind [rejection, firstFailed, Sys2Proof.codecRead]

/-- Decoding rejects a word by the first check that fails, and only then (R69). -/
theorem rejection_decode (w : CmdWord) : rejection (decode w) = firstFailed (fieldsOf w) := by
  cases hrsv : (fieldsOf w).rsvOk with
  | true =>
    have hd : decode w = decodeOperation (fieldsOf w) (tyOf (fieldsOf w)) := by
      simp_all [decode, Fields.rsvOk]
    rw [hd]
    exact (decodeOperation_rowResult _ _).rejection_eq hrsv
  | false =>
    have hd : decode w = .error .reservedBits := by
      simp_all [decode, Fields.rsvOk]
    rw [hd, (firstFailed_eq_reservedBits_iff _).2 hrsv, rejection]

theorem decode_eq_error_iff (w : CmdWord) (e : Reject) : decode w = .error e ↔ firstFailed (fieldsOf w) = some e := by
  rw [eq_error_iff_rejection, rejection_decode]

/-- A word decodes exactly when it is legal (R66). -/
theorem exists_decode_eq_ok_iff (w : CmdWord) : (∃ i, decode w = .ok i) ↔ (fieldsOf w).wellFormed = true := by
  rw [exists_ok_iff_rejection, rejection_decode, firstFailed_eq_none_iff]

/-- Settles O5: decoding rejects by the first check that fails, clause by clause. -/
theorem decoderChecksInOrder : Obligations.DecoderChecksInOrder := by
  unfold Obligations.DecoderChecksInOrder
  intro w
  simp only [decode_eq_error_iff]
  exact ⟨firstFailed_eq_reservedBits_iff _, firstFailed_eq_unassignedOpcode_iff _,
    firstFailed_eq_policyNotAllowed_iff _, firstFailed_eq_kindNotZero_iff _, firstFailed_eq_readKindReserved_iff _,
    exists_decode_eq_ok_iff w⟩

/-! ### Conversions with a kind that has no mapping -/

/-- The six conversions of a type and a kind (R64, R65). -/
def conversions (ty : Ty) (kind : Kind) : List Instr :=
  [.cvtto ty kind, .cvttoC ty kind, .cvttoSat ty kind, .cvtfrom ty kind, .cvtfromC ty kind, .cvtfromSat ty kind]

/-- What a conversion's row can decode to: the policies' three instructions, with the kind KIND names. -/
theorem threePolicies_ok {f : Fields} {i j k : Kind → Instr} {x : Instr} (h : threePolicies f i j k = .ok x) :
    x = i (kindOf f.kind) ∨ x = j (kindOf f.kind) ∨ x = k (kindOf f.kind) := by
  unfold threePolicies at h
  split_ifs at h <;> cases h
  · exact .inl rfl
  · exact .inr (.inl rfl)
  · exact .inr (.inr rfl)

/-- A word with the operation code of a conversion decodes to a conversion with the kind that KIND names. -/
theorem decode_mem_conversions {w : CmdWord} {i : Instr} (hopc : (fieldsOf w).opc.toNat ∈ conversionOpcodes)
    (hd : decode w = .ok i) : i ∈ conversions (tyOf (fieldsOf w)) (kindOf (fieldsOf w).kind) := by
  have hop : decodeOperation (fieldsOf w) (tyOf (fieldsOf w)) = .ok i := by
    simp only [decode] at hd
    split_ifs at hd
    exact hd
  simp only [conversionOpcodes, List.mem_cons, List.not_mem_nil, or_false] at hopc
  rcases hopc with hto | hfrom
  · simp only [decodeOperation, hto] at hop
    rcases threePolicies_ok hop with rfl | rfl | rfl <;> simp [conversions]
  · simp only [decodeOperation, hfrom] at hop
    rcases threePolicies_ok hop with rfl | rfl | rfl <;> simp [conversions]

/-- The codes 14 and 15 name no kind with a width (R201). -/
theorem kindBits_kindOf_eq_none {k : BitVec 4} (h : 14 ≤ k.toNat) : kindBits (kindOf k) = none := by
  revert k
  decide

/-- Every conversion of a kind with no mapping raises UnsupportedConversionError, whatever its operand (R203). -/
theorem meaning_conversion_unmapped {ty : Ty} {kind : Kind} {i : Instr} (hi : i ∈ conversions ty kind)
    (hk : kindBits kind = none) (q : Request) : meaning i q = .error .unsupportedConversion := by
  have hto (pol : Policy) : cvttoResponse pol ty kind q = .error .unsupportedConversion := by
    simp only [cvttoResponse, hk, raise]
  have hfrom (pol : Policy) : cvtfromResponse pol ty kind q = .error .unsupportedConversion := by
    simp only [cvtfromResponse, hk, raise]
  simp only [conversions, List.mem_cons, List.not_mem_nil, or_false] at hi
  rcases hi with rfl | rfl | rfl | rfl | rfl | rfl
  · exact hto .wrapping
  · exact hto .checked
  · exact hto .saturating
  · exact hfrom .wrapping
  · exact hfrom .checked
  · exact hfrom .saturating

/-- Settles O4: a word that fails a check is rejected by the decoder, any other decodes, and the step follows the decoder's
result. -/
theorem illegalCommandAnswersIllegalRequest : Obligations.IllegalCommandAnswersIllegalRequest := by
  unfold Obligations.IllegalCommandAnswersIllegalRequest
  intro q
  refine ⟨fun hwf => ?illegal, fun hwf => ?legal, fun hwf hopc hkind => ?unmapped⟩
  case illegal =>
    cases hd : decode q.cmd with
    | error e => exact unitResponds_illegalRequest hd
    | ok i =>
      have hlegal := (exists_decode_eq_ok_iff q.cmd).1 ⟨i, hd⟩
      exact absurd hlegal (by rw [hwf]; decide)
  case legal =>
    obtain ⟨i, hd⟩ := (exists_decode_eq_ok_iff q.cmd).2 hwf
    exact ⟨i, hd, step_of_decode_ok hd⟩
  case unmapped =>
    obtain ⟨i, hd⟩ := (exists_decode_eq_ok_iff q.cmd).2 hwf
    have hm := meaning_conversion_unmapped (decode_mem_conversions hopc hd) (kindBits_kindOf_eq_none hkind) q
    exact hm ▸ unitResponds_meaning hd

end Sys2Proof.Proofs

/-! PROOFS. Limb composition: what CAT, UPR and LWR put on port R, bit by bit (40_limb_composition.md rules R91 to R93), and
the command word of an instruction as a number (R61). -/

namespace Sys2Proof.Proofs

open Sys2Proof Sys2Proof.Machine

/-! ### Command words -/

/-- R61's sum for a command: each field is smaller than the weight of the next, so nothing is lost in the 16 bits. -/
theorem wordOf_command_toNat (opc : BitVec 6) (pol : BitVec 2) (kind : BitVec 4) (ty : Ty) :
    (wordOf (command opc pol kind ty)).toNat = opc.toNat + 256 * pol.toNat + 1024 * kind.toNat + typeBits ty := by
  have hopc := opc.isLt
  have hpol := pol.isLt
  have hkind := kind.isLt
  obtain ⟨signed, width⟩ := ty
  cases signed <;> cases width <;> simp [wordOf, command, typeBits] <;> omega

/-! ### Responses that define R only -/

/-- An instruction whose meaning is a result on R returns that result's bits, and every other field is zero. -/
theorem exists_returns_onlyR {i : Instr} {q : Request} {n : Nat} {x : BitVec n} {bit : Nat → Bool} (hn : n ≤ 512)
    (hm : meaning i q = okR x) (hx : ∀ j, x.getLsbD j = bit j) :
    ∃ v, Returns i q v ∧ OnlyR v ∧ ∀ j, v.r.getLsbD j = bit j :=
  ⟨{ r := port x }, (responds_iff i q _).2 hm, ⟨rfl, rfl, rfl, rfl⟩, fun j => (port_getLsbD hn x j).trans (hx j)⟩

/-! ### The bits of the halves -/

theorem halfBits_add_halfBits (ty : Ty) : ty.width.halfBits + ty.width.halfBits = ty.bits := ty.width.half_add_half

theorem halfBits_le_port (w : Width) : w.halfBits ≤ 512 := by cases w <;> decide

/-- A composed value: B's half below, A's half above it, nothing from W up (R91). -/
theorem halfA_append_halfB_getLsbD (ty : Ty) (q : Request) (j : Nat) :
    (halfA ty q ++ halfB ty q).getLsbD j =
      if j < ty.width.halfBits then q.b.getLsbD j
      else if j < ty.bits then q.a.getLsbD (j - ty.width.halfBits) else false := by
  have hW := halfBits_add_halfBits ty
  rw [BitVec.getLsbD_append, halfA, halfB, BitVec.getLsbD_setWidth, BitVec.getLsbD_setWidth]
  by_cases hlow : j < ty.width.halfBits
  · simp [hlow]
  · have hup : j - ty.width.halfBits < ty.width.halfBits ↔ j < ty.bits := by omega
    simp [hlow, hup]

/-- The upper half of a: bit j is bit j + H of A (R92). -/
theorem upperHalf_operandA_getLsbD (ty : Ty) (q : Request) (j : Nat) :
    (upperHalf ty (operandA ty q)).getLsbD j =
      if j < ty.width.halfBits then q.a.getLsbD (j + ty.width.halfBits) else false := by
  have hW := halfBits_add_halfBits ty
  rw [upperHalf, operandA, BitVec.getLsbD_extractLsb', BitVec.getLsbD_setWidth, Nat.add_comm]
  by_cases hj : j < ty.width.halfBits
  · have hup : j + ty.width.halfBits < ty.bits := by omega
    simp [hj, hup]
  · simp [hj]

/-- The lower half of a: bit j is bit j of A (R93). -/
theorem lowerHalf_operandA_getLsbD (ty : Ty) (q : Request) (j : Nat) :
    (lowerHalf ty (operandA ty q)).getLsbD j = if j < ty.width.halfBits then q.a.getLsbD j else false := by
  have hW := halfBits_add_halfBits ty
  rw [lowerHalf, operandA, BitVec.getLsbD_extractLsb', BitVec.getLsbD_setWidth, Nat.zero_add]
  by_cases hj : j < ty.width.halfBits
  · have hlow : j < ty.bits := by omega
    simp [hj, hlow]
  · simp [hj]

/-! ### The obligations -/

/-- Settles O19: CAT's word by R61's sum, its result by the bits of the composed value. -/
theorem catPlacesHalves : Obligations.CatPlacesHalves := by
  unfold Obligations.CatPlacesHalves
  intro ty q
  have hfit : ty.width.halfBits + ty.width.halfBits ≤ 512 := halfBits_add_halfBits ty ▸ ty.bits_le_port
  exact ⟨wordOf_command_toNat 0x01 0 0 ty, exists_returns_onlyR hfit rfl (halfA_append_halfB_getLsbD ty q)⟩

/-- Settles O20: the words of UPR and LWR by R61's sum, their results by the bits of the two halves. -/
theorem halfViewsZeroExtend : Obligations.HalfViewsZeroExtend := by
  unfold Obligations.HalfViewsZeroExtend
  intro ty q
  have hfit := halfBits_le_port ty.width
  exact ⟨wordOf_command_toNat 0x02 0 0 ty, wordOf_command_toNat 0x03 0 0 ty,
    exists_returns_onlyR hfit rfl (upperHalf_operandA_getLsbD ty q),
    exists_returns_onlyR hfit rfl (lowerHalf_operandA_getLsbD ty q)⟩

end Sys2Proof.Proofs

/-! PROOFS. The add/sub engine: the sum and the difference of two patterns with their carry and borrow, when the tests of
the checked policy hold, and what ADD, INC and DEC answer (41_add_sub.md rules R102, R107, R108). -/

namespace Sys2Proof.Proofs

open Sys2Proof Sys2Proof.Machine

/-! ### Sums and differences of patterns -/

theorem bv_uval_add {n : Nat} (a b : BitVec n) : bv n (uval a + uval b) = a + b := by
  simp [bv, uval, BitVec.ofInt_add]

theorem bv_uval_sub {n : Nat} (a b : BitVec n) : bv n (uval a - uval b) = a - b := by
  rw [eq_sub_iff_add_eq]
  calc bv n (uval a - uval b) + b
      = bv n (uval a - uval b) + bv n (uval b) := by rw [bv_uval]
    _ = bv n (uval a - uval b + uval b) := (BitVec.ofInt_add _ _).symm
    _ = a := by rw [sub_add_cancel, bv_uval]

theorem bv_one (n : Nat) : bv n 1 = 1 := bv_natCast n 1

theorem operandA_with_b (ty : Ty) (q : Request) (p : Port) : operandA ty { q with b := p } = operandA ty q := rfl

/-- B = 1 is the right operand of the ADD and the SUB that INC and DEC stand for (R107, R108). -/
theorem operandB_one (ty : Ty) (q : Request) : operandB ty { q with b := 1 } = 1 :=
  BitVec.setWidth_ofNat_one_eq_ofNat_one_of_lt (by decide)

/-- A type's most negative pattern is the library's. -/
theorem minPattern_eq_intMin (ty : Ty) : minPattern ty = BitVec.intMin ty.bits := by
  apply BitVec.eq_of_toNat_eq
  rw [minPattern, BitVec.toNat_ofNat, BitVec.toNat_intMin]

theorem complement_intMin {n : Nat} (hn : 0 < n) : ~~~(BitVec.intMin n) = BitVec.intMax n := by
  have htop : 2 ^ n = 2 * 2 ^ (n - 1) := by rw [← pow_succ', Nat.sub_add_cancel hn]
  apply BitVec.eq_of_toNat_eq
  rw [BitVec.toNat_not, BitVec.toNat_intMin_of_pos hn, BitVec.toNat_intMax]
  omega

/-! ### Carry and borrow -/

theorem carryOut_iff {n : Nat} (a b : BitVec n) : carryOut a b = true ↔ 2 ^ n ≤ a.toNat + b.toNat := by
  rw [carryOut, decide_eq_true_eq, uval, uval, pow2]
  norm_cast

theorem borrowOut_iff {n : Nat} (a b : BitVec n) : borrowOut a b = true ↔ a.toNat < b.toNat := by
  simp [borrowOut, uval]

/-- The sum with its carry in front is the exact sum (R102). -/
theorem add_toNat_add_carry {n : Nat} (a b : BitVec n) :
    (a + b).toNat + (if carryOut a b then 2 ^ n else 0) = a.toNat + b.toNat := by
  have ha := a.isLt
  have hb := b.isLt
  rw [BitVec.toNat_add]
  simp only [carryOut_iff]
  split_ifs with hc
  · rw [Nat.mod_eq_sub_mod hc, Nat.mod_eq_of_lt (by omega)]
    omega
  · exact Nat.mod_eq_of_lt (by omega)

theorem carryOut_one_iff {n : Nat} (hn : 0 < n) (a : BitVec n) : carryOut a 1 = true ↔ a = BitVec.allOnes n := by
  have ha := a.isLt
  have hone : (1 : BitVec n).toNat = 1 := BitVec.toNat_one hn
  rw [carryOut_iff, hone, ← BitVec.toNat_inj, BitVec.toNat_allOnes]
  omega

theorem borrowOut_one_iff {n : Nat} (hn : 0 < n) (a : BitVec n) : borrowOut a 1 = true ↔ a = 0 := by
  have hone : (1 : BitVec n).toNat = 1 := BitVec.toNat_one hn
  rw [borrowOut_iff, hone, Nat.lt_one_iff, ← BitVec.toNat_inj]
  rfl

/-! ### The tests of the checked policy -/

theorem addOverflows_iff {n : Nat} (signed : Bool) (a b r : BitVec n) :
    addOverflows signed a b r = true ↔
      if signed then a.msb = b.msb ∧ r.msb ≠ a.msb else carryOut a b = true := by
  cases signed <;> simp [addOverflows, sign]

/-- R102's signed test on the sum says that the exact sum leaves the signed range. -/
theorem addOverflows_signed {n : Nat} (a b : BitVec n) : addOverflows true a b (a + b) = a.saddOverflow b := by
  rw [BitVec.saddOverflow_eq]
  rfl

/-- R104's signed test on the difference says that the exact difference leaves the signed range. -/
theorem subOverflows_signed {n : Nat} (a b : BitVec n) : subOverflows true a b (a - b) = a.ssubOverflow b := by
  rw [BitVec.ssubOverflow_eq]
  simp only [subOverflows, sign, if_true]
  cases a.msb <;> cases b.msb <;> simp

/-- Only the greatest signed value has no successor. -/
theorem saddOverflow_one_iff {n : Nat} (hn : 1 < n) (a : BitVec n) : a.saddOverflow 1 = true ↔ a = BitVec.intMax n := by
  have hlow := BitVec.le_toInt a
  have hhigh := BitVec.toInt_lt (x := a)
  have hone : (1 : BitVec n).toInt = 1 := BitVec.toInt_one hn
  rw [← BitVec.toInt_inj, BitVec.toInt_intMax]
  simp only [BitVec.saddOverflow, hone, Bool.or_eq_true, decide_eq_true_eq]
  omega

/-- Only the least signed value has no predecessor. -/
theorem ssubOverflow_one_iff {n : Nat} (hn : 1 < n) (a : BitVec n) : a.ssubOverflow 1 = true ↔ a = BitVec.intMin n := by
  have hlow := BitVec.le_toInt a
  have hhigh := BitVec.toInt_lt (x := a)
  have hone : (1 : BitVec n).toInt = 1 := BitVec.toInt_one hn
  rw [← BitVec.toInt_inj, BitVec.toInt_intMin_of_pos (by omega)]
  simp only [BitVec.ssubOverflow, hone, Bool.or_eq_true, decide_eq_true_eq]
  omega

/-- Adding one fails for the type's greatest value only (R107). -/
theorem addOverflows_one_iff (ty : Ty) (a : BitVec ty.bits) :
    addOverflows ty.signed a 1 (a + 1) = true ↔
      if ty.signed then a = ~~~(minPattern ty) else a = BitVec.allOnes ty.bits := by
  have hW : 1 < ty.bits := by rcases ty.bits_cases with h | h <;> omega
  cases ty.signed with
  | false => exact carryOut_one_iff ty.bits_pos a
  | true =>
    rw [addOverflows_signed, minPattern_eq_intMin, complement_intMin ty.bits_pos, if_pos rfl]
    exact saddOverflow_one_iff hW a

/-- Subtracting one fails for the type's least value only (R108). -/
theorem subOverflows_one_iff (ty : Ty) (a : BitVec ty.bits) :
    subOverflows ty.signed a 1 (a - 1) = true ↔ if ty.signed then a = minPattern ty else a = 0 := by
  have hW : 1 < ty.bits := by rcases ty.bits_cases with h | h <;> omega
  cases ty.signed with
  | false => exact borrowOut_one_iff ty.bits_pos a
  | true =>
    rw [subOverflows_signed, minPattern_eq_intMin, if_pos rfl]
    exact ssubOverflow_one_iff hW a

/-! ### The responses of the engine -/

theorem addResponse_wrapping (ty : Ty) (a b : BitVec ty.bits) :
    addResponse false ty a b = okRC (a + b) (carryOut a b) := by
  simp [addResponse, bv_uval_add]

theorem addResponse_checked (ty : Ty) (a b : BitVec ty.bits) :
    addResponse true ty a b =
      if addOverflows ty.signed a b (a + b) then raise .overflow else okRC (a + b) (carryOut a b) := by
  simp [addResponse, bv_uval_add]

theorem subResponse_wrapping (ty : Ty) (a b : BitVec ty.bits) :
    subResponse false ty a b = okRC (a - b) (borrowOut a b) := by
  simp [subResponse, bv_uval_sub]

theorem subResponse_checked (ty : Ty) (a b : BitVec ty.bits) :
    subResponse true ty a b =
      if subOverflows ty.signed a b (a - b) then raise .overflow else okRC (a - b) (borrowOut a b) := by
  simp [subResponse, bv_uval_sub]

theorem meaning_inc (ty : Ty) (q : Request) : meaning (.inc ty) q = addResponse false ty (operandA ty q) 1 := by
  simp only [meaning, bv_one]

theorem meaning_incC (ty : Ty) (q : Request) : meaning (.incC ty) q = addResponse true ty (operandA ty q) 1 := by
  simp only [meaning, bv_one]

theorem meaning_dec (ty : Ty) (q : Request) : meaning (.dec ty) q = subResponse false ty (operandA ty q) 1 := by
  simp only [meaning, bv_one]

theorem meaning_decC (ty : Ty) (q : Request) : meaning (.decC ty) q = subResponse true ty (operandA ty q) 1 := by
  simp only [meaning, bv_one]

theorem meaning_add_one (ty : Ty) (q : Request) :
    meaning (.add ty) { q with b := 1 } = addResponse false ty (operandA ty q) 1 := by
  simp only [meaning, operandB_one, operandA_with_b]

theorem meaning_sub_one (ty : Ty) (q : Request) :
    meaning (.sub ty) { q with b := 1 } = subResponse false ty (operandA ty q) 1 := by
  simp only [meaning, operandB_one, operandA_with_b]

/-- A response that is an error under a test and a value otherwise, with the test said as a proposition. -/
theorem raises_or_returns {i : Instr} {q : Request} {k : ErrorKind} {v : Value} {test : Bool} {P : Prop} [Decidable P]
    (hm : meaning i q = if test then .error k else .value v) (htest : test = true ↔ P) :
    if P then Raises i q k else Returns i q v := by
  split_ifs with hP
  · exact (responds_iff i q _).2 (hm.trans (if_pos (htest.2 hP)))
  · exact (responds_iff i q _).2 (hm.trans (if_neg (mt htest.1 hP)))

/-! ### The obligations -/

/-- Settles O22: the words by R61's sum, the response by the sum of the patterns with its carry in front, the checked
policy by R102's test on that sum. -/
theorem addFollowsItsRule : Obligations.AddFollowsItsRule := by
  unfold Obligations.AddFollowsItsRule
  intro ty q
  have hfit := ty.bits_le_port
  have hw := addResponse_wrapping ty (operandA ty q) (operandB ty q)
  have hc := addResponse_checked ty (operandA ty q) (operandB ty q)
  refine ⟨wordOf_command_toNat 0x08 0 0 ty, wordOf_command_toNat 0x08 1 0 ty,
    { r := port (operandA ty q + operandB ty q), c := carryOut (operandA ty q) (operandB ty q) },
    (responds_iff _ q _).2 hw, ⟨rfl, rfl, rfl⟩, ?bound, ?sum, raises_or_returns hc ?test⟩
  case bound =>
    rw [port_toNat hfit]
    exact BitVec.isLt _
  case sum =>
    rw [port_toNat hfit]
    exact add_toNat_add_carry _ _
  case test =>
    rw [port_getLsbD hfit, ← BitVec.msb_eq_getLsbD_last]
    exact addOverflows_iff ty.signed _ _ _

/-- Settles O25: INC's meaning is ADD's with one for its right operand, and adding one carries and fails at one value
each. -/
theorem incFollowsItsRule : Obligations.IncFollowsItsRule := by
  unfold Obligations.IncFollowsItsRule
  intro ty q
  have hw := addResponse_wrapping ty (operandA ty q) 1
  have hc := addResponse_checked ty (operandA ty q) 1
  exact ⟨wordOf_command_toNat 0x0B 0 0 ty, wordOf_command_toNat 0x0B 1 0 ty,
    { r := port (operandA ty q + 1), c := carryOut (operandA ty q) 1 },
    (responds_iff _ q _).2 ((meaning_inc ty q).trans hw), (responds_iff _ _ _).2 ((meaning_add_one ty q).trans hw),
    ⟨rfl, rfl, rfl⟩, rfl, carryOut_one_iff ty.bits_pos _,
    raises_or_returns ((meaning_incC ty q).trans hc) (addOverflows_one_iff ty _)⟩

/-- Settles O26: DEC's meaning is SUB's with one for its right operand, and subtracting one borrows and fails at one value
each. -/
theorem decFollowsItsRule : Obligations.DecFollowsItsRule := by
  unfold Obligations.DecFollowsItsRule
  intro ty q
  have hw := subResponse_wrapping ty (operandA ty q) 1
  have hc := subResponse_checked ty (operandA ty q) 1
  exact ⟨wordOf_command_toNat 0x0C 0 0 ty, wordOf_command_toNat 0x0C 1 0 ty,
    { r := port (operandA ty q - 1), c := borrowOut (operandA ty q) 1 },
    (responds_iff _ q _).2 ((meaning_dec ty q).trans hw), (responds_iff _ _ _).2 ((meaning_sub_one ty q).trans hw),
    ⟨rfl, rfl, rfl⟩, rfl, borrowOut_one_iff ty.bits_pos _,
    raises_or_returns ((meaning_decC ty q).trans hc) (subOverflows_one_iff ty _)⟩

end Sys2Proof.Proofs

/-! PROOFS. The multiply engine: the product of two patterns read either way, the double width that always holds it, and
what MUL and BMUL answer (42_multiply.md rules R121, R123). -/

namespace Sys2Proof.Proofs

open Sys2Proof Sys2Proof.Machine

/-! ### Integers on a pattern and back -/

/-- An integer that fits a type is the value of its pattern (R14). -/
theorem val_bv_of_fits {signed : Bool} {n : Nat} {x : Int} (hn : 0 < n) (h : fits signed n x = true) :
    val signed (bv n x) = x := by
  obtain ⟨hlow, hhigh⟩ := (fits_iff signed n x).1 h
  cases signed with
  | false =>
    have hlt : x < pow2 n := Int.lt_of_le_sub_one hhigh
    change ((bv n x).toNat : Int) = x
    rw [bv_toNat, Int.emod_eq_of_lt hlow hlt, Int.toNat_of_nonneg hlow]
  | true =>
    simp only [minVal, maxVal, pow2, if_true, Nat.cast_pow, Nat.cast_ofNat] at hlow hhigh
    exact BitVec.toInt_ofInt_eq_self hn hlow (Int.lt_of_le_sub_one hhigh)

/-- The low k bits of a pattern of x are the pattern of x at width k. -/
theorem extractLsb'_zero_bv {k m : Nat} (h : k ≤ m) (x : Int) : (bv m x).extractLsb' 0 k = bv k x := by
  have hdvd : pow2 k ∣ pow2 m := Int.natCast_dvd_natCast.2 (Nat.pow_dvd_pow 2 h)
  have hnonneg : 0 ≤ x % pow2 m := Int.emod_nonneg x (pow2_pos m).ne'
  rw [← BitVec.setWidth_eq_extractLsb' h]
  apply BitVec.eq_of_toNat_eq
  rw [BitVec.toNat_setWidth, bv_toNat, bv_toNat, ← Int.emod_emod_of_dvd x hdvd]
  exact (Int.toNat_emod hnonneg (pow2_pos k).le).symm

/-- A pattern cut in the middle, its halves side by side. -/
theorem halves_append_bv (n : Nat) (x : Int) :
    (bv (2 * n) x).extractLsb' n n ++ (bv (2 * n) x).extractLsb' 0 n = bv (n + n) x := by
  rw [BitVec.extractLsb'_append_extractLsb'_eq_extractLsb' (Nat.zero_add n).symm]
  exact extractLsb'_zero_bv (Nat.two_mul n).ge x

theorem append_toNat {m n : Nat} (x : BitVec m) (y : BitVec n) : (x ++ y).toNat = x.toNat * 2 ^ n + y.toNat := by
  rw [BitVec.toNat_append, ← Nat.shiftLeft_add_eq_or_of_lt y.isLt, Nat.shiftLeft_eq]

/-! ### The exact product -/

/-- The product of two values of a type fits twice its width (R123). -/
theorem fits_mul (signed : Bool) {n : Nat} (hn : 0 < n) (a b : BitVec n) :
    fits signed (n + n) (val signed a * val signed b) = true := by
  rw [fits_iff]
  cases signed with
  | false =>
    have hlow : 0 ≤ uval a * uval b := mul_nonneg (uval_nonneg a) (uval_nonneg b)
    have hhigh : uval a * uval b < pow2 (n + n) := by
      rw [uval, uval, pow2, ← Nat.mul_two]
      exact_mod_cast BitVec.toNat_mul_toNat_lt (x := a) (y := b)
    exact ⟨hlow, Int.le_sub_one_of_lt hhigh⟩
  | true =>
    have hlow := BitVec.le_toInt_mul_toInt (x := a) (y := b)
    have hhigh := BitVec.toInt_mul_toInt_le (x := a) (y := b)
    have hpos : (0 : Int) < 2 ^ (n * 2 - 2) := by positivity
    have htop : pow2 (n + n - 1) = 2 * 2 ^ (n * 2 - 2) := by
      rw [← pow_succ', show n * 2 - 2 + 1 = n + n - 1 by omega]
      simp [pow2]
    simp only [val, sval, minVal, maxVal, if_true, htop]
    omega

/-- The low W bits of the exact product do not depend on S: they are the product of the patterns (R121). -/
theorem bv_exactProduct (ty : Ty) (q : Request) : bv ty.bits (exactProduct ty q) = operandA ty q * operandB ty q := by
  calc bv ty.bits (exactProduct ty q)
      = bv ty.bits (val ty.signed (operandA ty q)) * bv ty.bits (val ty.signed (operandB ty q)) :=
        BitVec.ofInt_mul _ _
    _ = operandA ty q * operandB ty q := by rw [bv_val, bv_val]

theorem wideProduct_low (ty : Ty) (q : Request) :
    (wideProduct ty q).extractLsb' 0 ty.bits = bv ty.bits (exactProduct ty q) :=
  extractLsb'_zero_bv (Nat.le_mul_of_pos_left _ two_pos) _

/-- The two halves of the double-width product, read by S as one number, are the exact product (R123). -/
theorem val_wideProduct_halves (ty : Ty) (q : Request) :
    val ty.signed ((wideProduct ty q).extractLsb' ty.bits ty.bits ++ (wideProduct ty q).extractLsb' 0 ty.bits) =
      exactProduct ty q := by
  rw [wideProduct, halves_append_bv]
  exact val_bv_of_fits (Nat.add_pos_left ty.bits_pos _) (fits_mul ty.signed ty.bits_pos _ _)

/-! ### The obligations -/

/-- Settles O30: the words by R61's sum, the result by the product of the patterns, the checked policy by the test that
its meaning branches on. -/
theorem mulFollowsItsRule : Obligations.MulFollowsItsRule := by
  unfold Obligations.MulFollowsItsRule
  intro ty q
  refine ⟨wordOf_command_toNat 0x10 0 0 ty, wordOf_command_toNat 0x10 1 0 ty,
    { r := port (bv ty.bits (exactProduct ty q)) }, (responds_iff _ q _).2 rfl, ⟨rfl, rfl, rfl, rfl⟩, ?product, ?checked⟩
  case product => rw [port_toNat ty.bits_le_port, bv_exactProduct, BitVec.toNat_mul]
  case checked =>
    split_ifs with hfits
    · exact (responds_iff _ q _).2 (if_pos hfits)
    · exact (responds_iff _ q _).2 (if_neg hfits)

/-- Settles O32: R is MUL's as the low half of the double-width product, and both halves together are the exact product
because twice the width always holds it. -/
theorem bmulGivesTheWholeProduct : Obligations.BmulGivesTheWholeProduct := by
  unfold Obligations.BmulGivesTheWholeProduct
  intro ty q
  have hport := ty.bits_le_port
  have hwhole := val_wideProduct_halves ty q
  refine ⟨wordOf_command_toNat 0x11 0 0 ty,
    { r := port ((wideProduct ty q).extractLsb' 0 ty.bits),
      rh := port ((wideProduct ty q).extractLsb' ty.bits ty.bits) },
    { r := port (bv ty.bits (exactProduct ty q)) }, (responds_iff _ q _).2 rfl, (responds_iff _ q _).2 rfl,
    congrArg port (wideProduct_low ty q), (port_toNat hport _).trans_lt (BitVec.isLt _),
    (port_toNat hport _).trans_lt (BitVec.isLt _), rfl, rfl, rfl, ?_⟩
  rw [setWidth_port hport, setWidth_port hport, port_toNat hport, port_toNat hport, ← append_toNat]
  split_ifs with hsigned
  · simpa only [val, sval, exactProduct, hsigned, if_true] using hwhole
  · simp only [val, uval, exactProduct, hsigned, Bool.false_eq_true, if_false] at hwhole
    exact_mod_cast hwhole

end Sys2Proof.Proofs

/-! PROOFS. The divide engine: quotient and remainder truncated toward zero as values of patterns, which pair of
operands divpair rejects, and what DIV, REM and DIVREM answer when it gives a pair (43_divide.md rules R136 to R142). -/

namespace Sys2Proof.Proofs

open Sys2Proof Sys2Proof.Machine

/-! ### Truncated division of integers -/

/-- The remainder that goes with the truncated quotient is the library's (R14). -/
theorem truncRem_eq_tmod (x y : Int) : truncRem x y = x.tmod y := (Int.tmod_def x y).symm

theorem truncDiv_mul_add_truncRem (x y : Int) : x = truncDiv x y * y + truncRem x y := by
  rw [truncRem_eq_tmod, truncDiv, Int.tdiv_mul_add_tmod]

theorem truncRem_natAbs_lt (x : Int) {y : Int} (hy : y ≠ 0) : (truncRem x y).natAbs < y.natAbs := by
  rw [truncRem_eq_tmod, Int.natAbs_tmod]
  exact Nat.mod_lt _ (Int.natAbs_pos.2 hy)

theorem truncRem_eq_zero_or_sign_eq (x y : Int) : truncRem x y = 0 ∨ (truncRem x y).sign = x.sign := by
  rw [truncRem_eq_tmod]
  by_cases hdvd : y ∣ x
  · exact .inl (Int.tmod_eq_zero_of_dvd hdvd)
  · exact .inr ((Int.sign_tmod x y).trans (if_neg hdvd))

/-! ### The operands of a division -/

/-- Only the zero pattern has the value 0. -/
theorem val_ne_zero {n : Nat} (signed : Bool) {b : BitVec n} (hb : b ≠ 0) : val signed b ≠ 0 := by
  intro hval
  have hpattern : bv n (val signed b) = b := bv_val signed b
  rw [hval] at hpattern
  exact hb (hpattern.symm.trans (bv_natCast n 0))

theorem bv_minVal_signed {n : Nat} (hn : 0 < n) : bv n (minVal true n) = BitVec.intMin n := by
  have hval : sval (BitVec.intMin n) = minVal true n := by
    simp [sval, minVal, pow2, BitVec.toInt_intMin_of_pos hn]
  rw [← hval, bv_sval]

theorem bv_neg_one {n : Nat} (hn : 0 < n) : bv n (-1) = BitVec.allOnes n := by
  have hval : sval (BitVec.allOnes n) = -1 := BitVec.toInt_allOnes.trans (if_pos hn)
  rw [← hval, bv_sval]

/-- The pair of operands R141 takes out: the least signed pattern by the pattern of minus one. -/
theorem minByNegOne_iff {n : Nat} (hn : 0 < n) (signed : Bool) (a b : BitVec n) :
    minByNegOne signed a b = true ↔ signed = true ∧ a = BitVec.intMin n ∧ b = BitVec.allOnes n := by
  simp only [minByNegOne, bv_minVal_signed hn, bv_neg_one hn, Bool.and_eq_true, beq_iff_eq, and_assoc]

/-! ### Quotient and remainder are values of the type (R140) -/

theorem truncDiv_unsigned {n : Nat} (a b : BitVec n) :
    truncDiv (val false a) (val false b) = val false (a / b) := by
  change Int.tdiv a.toNat b.toNat = ((a / b).toNat : Int)
  rw [BitVec.toNat_udiv, Int.ofNat_tdiv]

theorem truncDiv_signed {n : Nat} {a b : BitVec n} (h : a ≠ BitVec.intMin n ∨ b ≠ BitVec.allOnes n) :
    truncDiv (val true a) (val true b) = val true (a.sdiv b) := by
  rw [← BitVec.neg_one_eq_allOnes] at h
  exact (BitVec.toInt_sdiv_of_ne_or_ne a b h).symm

theorem truncRem_unsigned {n : Nat} (a b : BitVec n) :
    truncRem (val false a) (val false b) = val false (a % b) := by
  rw [truncRem_eq_tmod]
  change Int.tmod a.toNat b.toNat = ((a % b).toNat : Int)
  rw [BitVec.toNat_umod, Int.ofNat_tmod]

theorem truncRem_signed {n : Nat} (a b : BitVec n) :
    truncRem (val true a) (val true b) = val true (a.srem b) :=
  (truncRem_eq_tmod _ _).trans (BitVec.toInt_srem a b).symm

/-- MIN by minus one apart, the quotient of two patterns is the value of a pattern, so it fits. -/
theorem fits_truncDiv {signed : Bool} {n : Nat} (hn : 0 < n) {a b : BitVec n}
    (h : ¬minByNegOne signed a b = true) : fits signed n (truncDiv (val signed a) (val signed b)) = true := by
  rw [minByNegOne_iff hn] at h
  cases signed with
  | false =>
    rw [truncDiv_unsigned]
    exact fits_val false hn _
  | true =>
    have hne : a ≠ BitVec.intMin n ∨ b ≠ BitVec.allOnes n := not_and_or.1 fun hpair => h ⟨rfl, hpair⟩
    rw [truncDiv_signed hne]
    exact fits_val true hn _

/-- The remainder of any two patterns is the value of a pattern, so it fits. -/
theorem fits_truncRem (signed : Bool) {n : Nat} (hn : 0 < n) (a b : BitVec n) :
    fits signed n (truncRem (val signed a) (val signed b)) = true := by
  cases signed with
  | false =>
    rw [truncRem_unsigned]
    exact fits_val false hn _
  | true =>
    rw [truncRem_signed]
    exact fits_val true hn _

/-! ### The responses of the engine -/

/-- Neither check of divpair fails: it gives the pair, whichever operation asks for it (R140). -/
theorem divPair_eq_ok (op : DivOp) {ty : Ty} {a b : BitVec ty.bits} (hb : b ≠ 0)
    (h : ¬minByNegOne ty.signed a b = true) :
    divPair op ty a b =
      .ok (truncDiv (val ty.signed a) (val ty.signed b), truncRem (val ty.signed a) (val ty.signed b)) := by
  have hnone : divError op ty a b = none := by rw [divError, if_neg hb, if_neg h]
  rw [divPair, hnone]

theorem divResponse_of_divPair {ty : Ty} {q : Request} {x y : Int}
    (h : divPair .div ty (operandA ty q) (operandB ty q) = .ok (x, y)) : divResponse ty q = okR (bv ty.bits x) := by
  rw [divResponse, h]

theorem remResponse_of_divPair {ty : Ty} {q : Request} {x y : Int}
    (h : divPair .rem ty (operandA ty q) (operandB ty q) = .ok (x, y)) : remResponse ty q = okR (bv ty.bits y) := by
  rw [remResponse, h]

theorem divremResponse_of_divPair {ty : Ty} {q : Request} {x y : Int}
    (h : divPair .divrem ty (operandA ty q) (operandB ty q) = .ok (x, y)) :
    divremResponse ty q = okRRH (bv ty.bits x) (bv ty.bits y) := by
  rw [divremResponse, h]

/-- The two instructions of an operation, one for each policy, return what their shared meaning gives (R142). -/
theorem returns_of_mem_policies {i j : Instr} {q : Request} {v : Value} (hi : meaning i q = .value v)
    (hj : meaning j q = .value v) : ∀ k ∈ [i, j], Returns k q v := by
  intro k hk
  rw [List.mem_pair] at hk
  rcases hk with rfl | rfl
  · exact (responds_iff _ q _).2 hi
  · exact (responds_iff _ q _).2 hj

/-! ### The obligations -/

/-- Settles O36: with MIN by minus one excluded divpair gives the truncated quotient and remainder of the operands'
values, which fit because they are values of patterns, and each of the three operations returns its part of that pair. -/
theorem divisionTruncatesTowardZero : Obligations.DivisionTruncatesTowardZero := by
  unfold Obligations.DivisionTruncatesTowardZero
  intro ty q hb hpair
  have hmin : ¬minByNegOne ty.signed (operandA ty q) (operandB ty q) = true := by
    rwa [minByNegOne_iff ty.bits_pos, ← minPattern_eq_intMin]
  have hdiv := divResponse_of_divPair (divPair_eq_ok .div hb hmin)
  have hrem := remResponse_of_divPair (divPair_eq_ok .rem hb hmin)
  have hdivrem := divremResponse_of_divPair (divPair_eq_ok .divrem hb hmin)
  exact ⟨truncDiv (val ty.signed (operandA ty q)) (val ty.signed (operandB ty q)),
    truncRem (val ty.signed (operandA ty q)) (val ty.signed (operandB ty q)),
    truncDiv_mul_add_truncRem _ _, truncRem_natAbs_lt _ (val_ne_zero ty.signed hb), truncRem_eq_zero_or_sign_eq _ _,
    fits_truncDiv ty.bits_pos hmin, fits_truncRem ty.signed ty.bits_pos _ _,
    returns_of_mem_policies hdiv hdiv, returns_of_mem_policies hrem hrem, returns_of_mem_policies hdivrem hdivrem⟩

end Sys2Proof.Proofs

/-! PROOFS. The logic array and the shifter: what AND, OR, XOR, NOT, the shifts and the rotates put on port R, bit by bit
(44_bitwise_shift_count.md rules R161 to R164 and R167 to R171). -/

namespace Sys2Proof.Proofs

open Sys2Proof Sys2Proof.Machine

/-! ### Operands and amounts -/

/-- a is A below W and nothing above (R26). -/
theorem operandA_getLsbD (ty : Ty) (q : Request) (j : Nat) :
    (operandA ty q).getLsbD j = (decide (j < ty.bits) && q.a.getLsbD j) :=
  BitVec.getLsbD_setWidth _ _ _

theorem operandB_getLsbD (ty : Ty) (q : Request) (j : Nat) :
    (operandB ty q).getLsbD j = (decide (j < ty.bits) && q.b.getLsbD j) :=
  BitVec.getLsbD_setWidth _ _ _

theorem operandA_getLsbD_of_lt {ty : Ty} {j : Nat} (h : j < ty.bits) (q : Request) :
    (operandA ty q).getLsbD j = q.a.getLsbD j := by
  rw [operandA_getLsbD, decide_eq_true h, Bool.true_and]

theorem bits_dvd_two_pow_bits (ty : Ty) : ty.bits ∣ 2 ^ ty.bits := by
  rcases ty.bits_cases with h | h <;> rw [h]
  · exact pow_dvd_pow 2 (show 8 ≤ 256 by decide)
  · exact pow_dvd_pow 2 (show 9 ≤ 512 by decide)

/-- The amount is B modulo W: the bits of B above W - 1 weigh multiples of W (R68, R166). -/
theorem amount_eq (ty : Ty) (q : Request) : amount ty q = q.b.toNat % ty.bits := by
  rw [amount, operandB, BitVec.toNat_setWidth, Nat.mod_mod_of_dvd _ (bits_dvd_two_pow_bits ty)]

theorem amount_lt (ty : Ty) (q : Request) : amount ty q < ty.bits := Nat.mod_lt _ ty.bits_pos

/-! ### The logic array -/

theorem operandA_and_operandB_getLsbD (ty : Ty) (q : Request) (j : Nat) :
    (operandA ty q &&& operandB ty q).getLsbD j = (decide (j < ty.bits) && (q.a.getLsbD j && q.b.getLsbD j)) := by
  rw [BitVec.getLsbD_and, operandA_getLsbD, operandB_getLsbD]
  by_cases hj : j < ty.bits <;> simp [hj]

theorem operandA_or_operandB_getLsbD (ty : Ty) (q : Request) (j : Nat) :
    (operandA ty q ||| operandB ty q).getLsbD j = (decide (j < ty.bits) && (q.a.getLsbD j || q.b.getLsbD j)) := by
  rw [BitVec.getLsbD_or, operandA_getLsbD, operandB_getLsbD]
  exact (Bool.and_or_distrib_left _ _ _).symm

theorem operandA_xor_operandB_getLsbD (ty : Ty) (q : Request) (j : Nat) :
    (operandA ty q ^^^ operandB ty q).getLsbD j = (decide (j < ty.bits) && (q.a.getLsbD j != q.b.getLsbD j)) := by
  rw [BitVec.getLsbD_xor, operandA_getLsbD, operandB_getLsbD]
  exact (Bool.and_xor_distrib_left _ _ _).symm

/-- The complement is taken at width W: nothing from W up (R164). -/
theorem not_operandA_getLsbD (ty : Ty) (q : Request) (j : Nat) :
    (~~~(operandA ty q)).getLsbD j = (decide (j < ty.bits) && !q.a.getLsbD j) := by
  rw [BitVec.getLsbD_not, operandA_getLsbD]
  by_cases hj : j < ty.bits <;> simp [hj]

/-! ### The shifter -/

theorem shiftLeft_getLsbD {w : Nat} (a : BitVec w) (n j : Nat) :
    (shiftLeft a n).getLsbD j = (decide (j < w) && decide (n ≤ j) && a.getLsbD (j - n)) := by
  rw [shiftLeft_eq, BitVec.getLsbD_shiftLeft, ← decide_not, decide_eq_decide.2 Nat.not_lt]

theorem shiftRightLogical_getLsbD {w : Nat} (a : BitVec w) (n j : Nat) :
    (shiftRightLogical a n).getLsbD j = a.getLsbD (j + n) := by
  rw [shiftRightLogical_eq, BitVec.getLsbD_ushiftRight, Nat.add_comm]

theorem shiftRightArithmetic_getLsbD {w : Nat} (a : BitVec w) (n j : Nat) :
    (shiftRightArithmetic a n).getLsbD j =
      if w ≤ j then false else if j + n < w then a.getLsbD (j + n) else a.getLsbD (w - 1) := by
  rw [shiftRightArithmetic_eq, BitVec.getLsbD_sshiftRight, BitVec.msb_eq_getLsbD_last, Nat.add_comm]
  by_cases hj : w ≤ j <;> simp [hj]

/-- The opposite amount (W - n) mod W of the spec: an amount of zero has the opposite zero (D34). -/
theorem opposite_amount_zero (w : Nat) : (w - 0) % w = 0 := Nat.mod_self w

theorem opposite_amount_of_pos {w n : Nat} (h0 : 0 < n) (hn : n < w) : (w - n) % w = w - n :=
  Nat.mod_eq_of_lt (by omega)

theorem rotateLeft_zero {w : Nat} (a : BitVec w) : rotateLeft a 0 = a := by
  rw [rotateLeft, opposite_amount_zero, shiftLeft_eq, shiftRightLogical_eq, BitVec.shiftLeft_zero,
    BitVec.ushiftRight_zero, BitVec.or_self]

theorem rotateRight_zero {w : Nat} (a : BitVec w) : rotateRight a 0 = a := by
  rw [rotateRight, opposite_amount_zero, shiftLeft_eq, shiftRightLogical_eq, BitVec.shiftLeft_zero,
    BitVec.ushiftRight_zero, BitVec.or_self]

/-- Without rotation every bit keeps its index. -/
theorem getLsbD_mod_width {w : Nat} (a : BitVec w) (j : Nat) :
    (decide (j < w) && a.getLsbD (j % w)) = a.getLsbD j := by
  by_cases hj : j < w
  · rw [Nat.mod_eq_of_lt hj, decide_eq_true hj, Bool.true_and]
  · rw [BitVec.getLsbD_of_ge a j (by omega), decide_eq_false hj, Bool.false_and]

/-- A rotate left by less than the width: bit j is bit (j - n) mod W, from the left shift for the bits from n up and from
the right shift for the n bits below (R170). -/
theorem rotateLeft_getLsbD {w n : Nat} (hn : n < w) (a : BitVec w) (j : Nat) :
    (rotateLeft a n).getLsbD j = (decide (j < w) && a.getLsbD ((j + (w - n)) % w)) := by
  rcases Nat.eq_zero_or_pos n with rfl | h0
  · rw [rotateLeft_zero, Nat.sub_zero, Nat.add_mod_right, getLsbD_mod_width]
  by_cases hj : w ≤ j
  · rw [BitVec.getLsbD_of_ge _ j hj, decide_eq_false (by omega), Bool.false_and]
  rw [rotateLeft, BitVec.getLsbD_or, shiftLeft_getLsbD, shiftRightLogical_getLsbD, opposite_amount_of_pos h0 hn]
  by_cases hnj : n ≤ j
  · have hindex : (j + (w - n)) % w = j - n := by
      rw [show j + (w - n) = j - n + w by omega, Nat.add_mod_right, Nat.mod_eq_of_lt (by omega)]
    rw [hindex, BitVec.getLsbD_of_ge a (j + (w - n)) (by omega)]
    simp [hnj]
  · rw [Nat.mod_eq_of_lt (by omega : j + (w - n) < w)]
    simp [hnj, Nat.not_le.1 hj]

/-- A rotate right is the rotate left by the opposite amount (R171). -/
theorem rotateRight_eq_rotateLeft {w n : Nat} (h0 : 0 < n) (hn : n < w) (a : BitVec w) :
    rotateRight a n = rotateLeft a (w - n) := by
  rw [rotateRight, rotateLeft, opposite_amount_of_pos h0 hn, Nat.sub_sub_self hn.le, Nat.mod_eq_of_lt hn,
    BitVec.or_comm]

theorem rotateRight_getLsbD {w n : Nat} (hn : n < w) (a : BitVec w) (j : Nat) :
    (rotateRight a n).getLsbD j = (decide (j < w) && a.getLsbD ((j + n) % w)) := by
  rcases Nat.eq_zero_or_pos n with rfl | h0
  · rw [rotateRight_zero, Nat.add_zero, getLsbD_mod_width]
  · rw [rotateRight_eq_rotateLeft h0 hn, rotateLeft_getLsbD (by omega), Nat.sub_sub_self hn.le]

/-! ### The shifts and rotates of the operand a -/

theorem shl_operandA_getLsbD (ty : Ty) (q : Request) (j : Nat) :
    (shiftLeft (operandA ty q) (amount ty q)).getLsbD j =
      (decide (j < ty.bits) && decide (q.b.toNat % ty.bits ≤ j) && q.a.getLsbD (j - q.b.toNat % ty.bits)) := by
  rw [shiftLeft_getLsbD, amount_eq]
  by_cases hj : j < ty.bits
  · rw [operandA_getLsbD_of_lt (by omega)]
  · simp [hj]

theorem shrl_operandA_getLsbD (ty : Ty) (q : Request) (j : Nat) :
    (shiftRightLogical (operandA ty q) (amount ty q)).getLsbD j =
      (decide (j + q.b.toNat % ty.bits < ty.bits) && q.a.getLsbD (j + q.b.toNat % ty.bits)) := by
  rw [shiftRightLogical_getLsbD, amount_eq, operandA_getLsbD]

theorem meaning_shr (ty : Ty) (q : Request) :
    meaning (.shr ty) q = okR (if ty.signed then shiftRightArithmetic (operandA ty q) (amount ty q)
      else shiftRightLogical (operandA ty q) (amount ty q)) :=
  (apply_ite okR _ _ _).symm

theorem shr_operandA_getLsbD (ty : Ty) (q : Request) (j : Nat) :
    (if ty.signed then shiftRightArithmetic (operandA ty q) (amount ty q)
      else shiftRightLogical (operandA ty q) (amount ty q)).getLsbD j =
      if ty.bits ≤ j then false
      else if j + q.b.toNat % ty.bits < ty.bits then q.a.getLsbD (j + q.b.toNat % ty.bits)
      else ty.signed && q.a.getLsbD (ty.bits - 1) := by
  have htop : ty.bits - 1 < ty.bits := Nat.sub_one_lt_of_lt ty.bits_pos
  cases ty.signed with
  | true =>
    rw [if_pos rfl, shiftRightArithmetic_getLsbD, amount_eq, operandA_getLsbD, operandA_getLsbD_of_lt htop]
    by_cases hin : j + q.b.toNat % ty.bits < ty.bits <;> simp [hin]
  | false =>
    rw [if_neg Bool.false_ne_true, shrl_operandA_getLsbD]
    by_cases hj : ty.bits ≤ j
    · rw [if_pos hj, decide_eq_false (by omega), Bool.false_and]
    · by_cases hin : j + q.b.toNat % ty.bits < ty.bits <;> simp [hj, hin]

theorem rol_operandA_getLsbD (ty : Ty) (q : Request) (j : Nat) :
    (rotateLeft (operandA ty q) (amount ty q)).getLsbD j =
      (decide (j < ty.bits) && q.a.getLsbD ((j + (ty.bits - q.b.toNat % ty.bits)) % ty.bits)) := by
  rw [rotateLeft_getLsbD (amount_lt ty q), amount_eq, operandA_getLsbD_of_lt (Nat.mod_lt _ ty.bits_pos)]

theorem ror_operandA_getLsbD (ty : Ty) (q : Request) (j : Nat) :
    (rotateRight (operandA ty q) (amount ty q)).getLsbD j =
      (decide (j < ty.bits) && q.a.getLsbD ((j + q.b.toNat % ty.bits) % ty.bits)) := by
  rw [rotateRight_getLsbD (amount_lt ty q), amount_eq, operandA_getLsbD_of_lt (Nat.mod_lt _ ty.bits_pos)]

/-! ### The obligations -/

/-- Settles O41: the four words by R61's sum, the four results by the bits of the operands. -/
theorem logicIsBitByBit : Obligations.LogicIsBitByBit := by
  unfold Obligations.LogicIsBitByBit
  intro ty q
  have hfit := ty.bits_le_port
  exact ⟨wordOf_command_toNat 0x20 0 0 ty, wordOf_command_toNat 0x21 0 0 ty, wordOf_command_toNat 0x22 0 0 ty,
    wordOf_command_toNat 0x23 0 0 ty,
    exists_returns_onlyR hfit rfl (operandA_and_operandB_getLsbD ty q),
    exists_returns_onlyR hfit rfl (operandA_or_operandB_getLsbD ty q),
    exists_returns_onlyR hfit rfl (operandA_xor_operandB_getLsbD ty q),
    exists_returns_onlyR hfit rfl (not_operandA_getLsbD ty q)⟩

/-- Settles O42: SHL's word by R61's sum, its result by the bits of the left shift. -/
theorem shiftLeftMovesBits : Obligations.ShiftLeftMovesBits := by
  unfold Obligations.ShiftLeftMovesBits
  intro ty q
  exact ⟨wordOf_command_toNat 0x24 0 0 ty, exists_returns_onlyR ty.bits_le_port rfl (shl_operandA_getLsbD ty q)⟩

/-- Settles O43: the words of SHR and SHRL by R61's sum, SHR's result by the type's own right shift, SHRL's by the logical
one. -/
theorem rightShiftsFill : Obligations.RightShiftsFill := by
  unfold Obligations.RightShiftsFill
  intro ty q
  have hfit := ty.bits_le_port
  exact ⟨wordOf_command_toNat 0x25 0 0 ty, wordOf_command_toNat 0x26 0 0 ty,
    exists_returns_onlyR hfit (meaning_shr ty q) (shr_operandA_getLsbD ty q),
    exists_returns_onlyR hfit rfl (shrl_operandA_getLsbD ty q)⟩

/-- Settles O44: the words of ROL and ROR by R61's sum, their results by the bits of the two rotates. -/
theorem rotatesMoveBitsModuloW : Obligations.RotatesMoveBitsModuloW := by
  unfold Obligations.RotatesMoveBitsModuloW
  intro ty q
  have hfit := ty.bits_le_port
  exact ⟨wordOf_command_toNat 0x27 0 0 ty, wordOf_command_toNat 0x28 0 0 ty,
    exists_returns_onlyR hfit rfl (rol_operandA_getLsbD ty q),
    exists_returns_onlyR hfit rfl (ror_operandA_getLsbD ty q)⟩

end Sys2Proof.Proofs

/-! PROOFS. The comparison unit: which order each code of ORD says, and that the values read by S are equal only when the
patterns are (45_comparison.md rules R191, R193). -/

namespace Sys2Proof.Proofs

open Sys2Proof Sys2Proof.Machine

/-! ### The values of two patterns -/

/-- R193: equality does not depend on S, because a pattern is recovered from its value read either way. -/
theorem val_injective (signed : Bool) (n : Nat) : Function.Injective (val signed : BitVec n → Int) :=
  Function.LeftInverse.injective (bv_val signed)

/-! ### The codes of ORD -/

theorem ordering_self (x : Int) : ordering x x = 0 := if_pos rfl

theorem ordering_of_lt {x y : Int} (h : x < y) : ordering x y = 1 := by
  rw [ordering, if_neg h.ne, if_pos h]

theorem ordering_of_gt {x y : Int} (h : y < x) : ordering x y = 2 := by
  rw [ordering, if_neg h.ne', if_neg h.not_gt]

/-- R191's three outcomes exclude each other, so each code says exactly its own, and there is no fourth. -/
theorem ordering_spec (x y : Int) :
    (ordering x y = 0 ↔ x = y) ∧ (ordering x y = 1 ↔ x < y) ∧ (ordering x y = 2 ↔ y < x) ∧ ordering x y ≠ 3 := by
  rcases lt_trichotomy x y with hlt | rfl | hgt
  · simp [ordering_of_lt hlt, hlt, hlt.ne, hlt.le]
  · simp [ordering_self]
  · simp [ordering_of_gt hgt, hgt, hgt.ne', hgt.le]

/-! ### The obligation -/

/-- Settles O48: the word by R61's sum, the response by the order of the two values, which are equal exactly when the
patterns are. -/
theorem cmpOrdersValues : Obligations.CmpOrdersValues := by
  unfold Obligations.CmpOrdersValues
  intro ty q
  obtain ⟨hequal, hless, hgreater, hthree⟩ :=
    ordering_spec (val ty.signed (operandA ty q)) (val ty.signed (operandB ty q))
  have hpatterns := (val_injective ty.signed ty.bits).eq_iff (a := operandA ty q) (b := operandB ty q)
  exact ⟨wordOf_command_toNat 0x30 0 0 ty, _, (responds_iff _ q _).2 rfl, rfl, rfl, rfl, rfl,
    hequal.trans hpatterns, hless, hgreater, hthree⟩

end Sys2Proof.Proofs

/-! PROOFS. Which errors each instruction can raise, said once through `canRaise`, and from it the two errors with one
condition each: DivideByZeroError and UnsupportedConversionError (60_exceptions.md rules R242 to R246). -/

namespace Sys2Proof.Proofs

open Sys2Proof Sys2Proof.Machine

/-! ### The errors of the shared responses -/

/-- A test that guards a response which is no error: the error is the test's, and the test holds. -/
theorem guard_of_error_response {test : Prop} [Decidable test] {raised k : ErrorKind} {r : Response}
    (hr : ∀ e, r ≠ .error e) (h : (if test then raise raised else r) = .error k) : test ∧ k = raised := by
  split_ifs at h with htest
  · cases h
    exact ⟨htest, rfl⟩
  · exact absurd h (hr k)

theorem okRC_ne_error {n : Nat} (r : BitVec n) (c : Bool) (k : ErrorKind) : okRC r c ≠ .error k := nofun

/-- The error of a checked addition is OverflowError (R102). -/
theorem addResponse_checked_error {ty : Ty} {a b : BitVec ty.bits} {k : ErrorKind}
    (h : addResponse true ty a b = .error k) : k = .overflow :=
  (guard_of_error_response (okRC_ne_error _ _) h).2

/-- The error of a checked subtraction is OverflowError (R104). -/
theorem subResponse_checked_error {ty : Ty} {a b : BitVec ty.bits} {k : ErrorKind}
    (h : subResponse true ty a b = .error k) : k = .overflow :=
  (guard_of_error_response (okRC_ne_error _ _) h).2

/-- A write has no error: a capacity too small is a false outcome (R224, R252). -/
theorem writeResponse_ne_error (ty : Ty) (q : Request) (bytes : List Byte) (k : ErrorKind) :
    writeResponse ty q bytes ≠ .error k := by
  unfold writeResponse
  split_ifs <;> nofun

/-- A value that does not fit the type is a false outcome of a read, no error (R225, R252). -/
theorem readValueResponse_ne_error (ty : Ty) (x : Int) (k : ErrorKind) : readValueResponse ty x ≠ .error k := by
  unfold readValueResponse
  split_ifs <;> nofun

theorem rdbeResponse_error {ty : Ty} {isUnsigned : Bool} {q : Request} {k : ErrorKind}
    (h : rdbeResponse ty isUnsigned q = .error k) : k = .illegalRequest :=
  (guard_of_error_response (readValueResponse_ne_error ty _) h).2

theorem rdleResponse_error {ty : Ty} {isUnsigned : Bool} {q : Request} {k : ErrorKind}
    (h : rdleResponse ty isUnsigned q = .error k) : k = .illegalRequest :=
  (guard_of_error_response (readValueResponse_ne_error ty _) h).2

/-! ### The errors of a conversion -/

/-- Only the checked policy rejects a value (R202). -/
theorem convert_error {pol : Policy} {signed : Bool} {n : Nat} {x : Int} {k : ErrorKind}
    (h : convert pol signed n x = .error k) : pol = .checked ∧ k = .overflow := by
  cases pol with
  | wrapping => cases h
  | checked =>
    simp only [convert] at h
    split_ifs at h
    cases h
    exact ⟨rfl, rfl⟩
  | saturating =>
    simp only [convert] at h
    split_ifs at h

theorem convertResponse_error {pol : Policy} {signed : Bool} {n : Nat} {x : Int} {k : ErrorKind}
    (h : convertResponse pol signed n x = .error k) : pol = .checked ∧ k = .overflow := by
  unfold convertResponse at h
  split at h
  next => cases h
  next e hconvert =>
    cases h
    exact convert_error hconvert

/-- What error a conversion of a policy and a kind can raise: the kind is looked at before the value (R203). -/
def ConversionError (pol : Policy) (kind : Kind) (k : ErrorKind) : Prop :=
  (kindBits kind = none ∧ k = .unsupportedConversion) ∨ (pol = .checked ∧ k = .overflow)

theorem cvttoResponse_error {pol : Policy} {ty : Ty} {kind : Kind} {q : Request} {k : ErrorKind}
    (h : cvttoResponse pol ty kind q = .error k) : ConversionError pol kind k := by
  unfold cvttoResponse at h
  split at h
  next hkind =>
    cases h
    exact .inl ⟨hkind, rfl⟩
  next => exact .inr (convertResponse_error h)

theorem cvtfromResponse_error {pol : Policy} {ty : Ty} {kind : Kind} {q : Request} {k : ErrorKind}
    (h : cvtfromResponse pol ty kind q = .error k) : ConversionError pol kind k := by
  unfold cvtfromResponse at h
  split at h
  next hkind =>
    cases h
    exact .inl ⟨hkind, rfl⟩
  next => exact .inr (convertResponse_error h)

/-- The kinds with no mapping are those of the codes 14 and 15 (R201, R203). -/
theorem kindBits_eq_none_iff (kind : Kind) : kindBits kind = none ↔ kind = .none14 ∨ kind = .none15 := by
  cases kind <;> decide

/-! ### The errors of the divide engine -/

/-- The six instructions of the divide family on a type (R137 to R139). -/
def divides (ty : Ty) : List Instr := [.div ty, .divC ty, .rem ty, .remC ty, .divrem ty, .divremC ty]

/-- The type of an instruction of the divide family is the type it divides on. -/
theorem ty_of_mem_divides {ty : Ty} {i : Instr} (hi : i ∈ divides ty) : i.ty = ty := by
  simp only [divides, List.mem_cons, List.not_mem_nil, or_false] at hi
  rcases hi with rfl | rfl | rfl | rfl | rfl | rfl <;> rfl

theorem divResponse_eq_error_iff (ty : Ty) (q : Request) (k : ErrorKind) :
    divResponse ty q = .error k ↔ divError .div ty (operandA ty q) (operandB ty q) = some k := by
  unfold divResponse divPair
  cases divError .div ty (operandA ty q) (operandB ty q) <;> simp [raise, okR]

theorem remResponse_eq_error_iff (ty : Ty) (q : Request) (k : ErrorKind) :
    remResponse ty q = .error k ↔ divError .rem ty (operandA ty q) (operandB ty q) = some k := by
  unfold remResponse divPair
  cases divError .rem ty (operandA ty q) (operandB ty q) <;> simp [raise, okR]

theorem divremResponse_eq_error_iff (ty : Ty) (q : Request) (k : ErrorKind) :
    divremResponse ty q = .error k ↔ divError .divrem ty (operandA ty q) (operandB ty q) = some k := by
  unfold divremResponse divPair
  cases divError .divrem ty (operandA ty q) (operandB ty q) <;> simp [raise, okRRH]

/-- MIN by minus one is OverflowError or no error, so it is never DivideByZeroError (R141, R143). -/
theorem minByNegOneError_eq_some {op : DivOp} {k : ErrorKind} (h : minByNegOneError op = some k) :
    k = .overflow ∧ (op = .rem → Config.remMinNeg1 = .overflow) := by
  cases op with
  | div | divrem =>
    cases h
    exact ⟨rfl, nofun⟩
  | rem =>
    unfold minByNegOneError at h
    cases hrem : Config.remMinNeg1 with
    | overflow =>
      simp only [hrem, Option.some.injEq] at h
      exact ⟨h.symm, fun _ => rfl⟩
    | zero => simp [hrem] at h

/-- divpair's checks can fail in two ways: a zero divisor, and on a signed type MIN by minus one (R140, R141, R143). -/
theorem divError_cases {op : DivOp} {ty : Ty} {a b : BitVec ty.bits} {k : ErrorKind} (h : divError op ty a b = some k) :
    (k = .divideByZero ∧ b = 0) ∨
      (k = .overflow ∧ ty.signed = true ∧ (op = .rem → Config.remMinNeg1 = .overflow)) := by
  unfold divError at h
  split_ifs at h with hzero hmin
  · cases h
    exact .inl ⟨rfl, hzero⟩
  · obtain ⟨hk, hrem⟩ := minByNegOneError_eq_some h
    exact .inr ⟨hk, ((minByNegOne_iff ty.bits_pos _ _ _).1 hmin).1, hrem⟩

/-- The zero divisor is the only cause of DivideByZeroError, and it is checked before anything else (R141). -/
theorem divError_eq_divideByZero_iff (op : DivOp) (ty : Ty) (a b : BitVec ty.bits) :
    divError op ty a b = some .divideByZero ↔ b = 0 := by
  constructor
  · intro h
    rcases divError_cases h with ⟨-, hzero⟩ | ⟨hk, -⟩
    · exact hzero
    · cases hk
  · exact fun hzero => if_pos hzero

/-- An instruction of the divide family raises DivideByZeroError exactly when its divisor is zero (R243). -/
theorem meaning_divide_eq_divideByZero_iff {ty : Ty} {i : Instr} (hi : i ∈ divides ty) (q : Request) :
    meaning i q = .error .divideByZero ↔ operandB ty q = 0 := by
  have hdiv := (divResponse_eq_error_iff ty q .divideByZero).trans (divError_eq_divideByZero_iff .div ty _ _)
  have hrem := (remResponse_eq_error_iff ty q .divideByZero).trans (divError_eq_divideByZero_iff .rem ty _ _)
  have hdivrem := (divremResponse_eq_error_iff ty q .divideByZero).trans (divError_eq_divideByZero_iff .divrem ty _ _)
  simp only [divides, List.mem_cons, List.not_mem_nil, or_false] at hi
  rcases hi with rfl | rfl | rfl | rfl | rfl | rfl
  · exact hdiv
  · exact hdiv
  · exact hrem
  · exact hrem
  · exact hdivrem
  · exact hdivrem

/-! ### The errors of an instruction -/

/-- The inversion of all 45 meanings at once: an error an instruction answers is one that `canRaise` lists for it
(R242 to R246). -/
theorem canRaise_of_meaning_error {i : Instr} {q : Request} {k : ErrorKind} (h : meaning i q = .error k) :
    canRaise i k = true := by
  cases i with
  | cat _ | upr _ | lwr _ | add _ | sub _ | neg _ | inc _ | dec _ | mul _ | bmul _ => cases h
  | and _ | or _ | xor _ | not _ | shl _ | shrl _ | rol _ | ror _ | lzc _ | tzc _ | popc _ | cmp _ => cases h
  | shr ty =>
    simp only [meaning] at h
    split_ifs at h <;> cases h
  | mulC ty =>
    simp only [meaning] at h
    split_ifs at h <;> cases h
    rfl
  | addC _ | incC _ =>
    cases addResponse_checked_error h
    rfl
  | subC _ | negC _ | decC _ =>
    cases subResponse_checked_error h
    rfl
  | div ty | divC ty =>
    rcases divError_cases ((divResponse_eq_error_iff ty q k).1 h) with ⟨rfl, -⟩ | ⟨rfl, hsigned, -⟩
    · rfl
    · exact hsigned
  | rem ty | remC ty =>
    rcases divError_cases ((remResponse_eq_error_iff ty q k).1 h) with ⟨rfl, -⟩ | ⟨rfl, hsigned, hrem⟩
    · rfl
    · simp [canRaise, hsigned, hrem]
  | divrem ty | divremC ty =>
    rcases divError_cases ((divremResponse_eq_error_iff ty q k).1 h) with ⟨rfl, -⟩ | ⟨rfl, hsigned, -⟩
    · rfl
    · exact hsigned
  | cvtto ty kind | cvttoSat ty kind =>
    rcases cvttoResponse_error h with ⟨hkind, rfl⟩ | ⟨hpol, -⟩
    · simpa [canRaise] using (kindBits_eq_none_iff kind).1 hkind
    · cases hpol
  | cvttoC ty kind =>
    rcases cvttoResponse_error h with ⟨hkind, rfl⟩ | ⟨-, rfl⟩
    · simpa [canRaise] using (kindBits_eq_none_iff kind).1 hkind
    · rfl
  | cvtfrom ty kind | cvtfromSat ty kind =>
    rcases cvtfromResponse_error h with ⟨hkind, rfl⟩ | ⟨hpol, -⟩
    · simpa [canRaise] using (kindBits_eq_none_iff kind).1 hkind
    · cases hpol
  | cvtfromC ty kind =>
    rcases cvtfromResponse_error h with ⟨hkind, rfl⟩ | ⟨-, rfl⟩
    · simpa [canRaise] using (kindBits_eq_none_iff kind).1 hkind
    · rfl
  | wrbe ty | wrle ty => exact absurd h (writeResponse_ne_error _ _ _ _)
  | rdbe ty isUnsigned =>
    cases rdbeResponse_error h
    rfl
  | rdle ty isUnsigned =>
    cases rdleResponse_error h
    rfl

/-- `canRaise` lists DivideByZeroError for the divide family only (R243). -/
theorem mem_divides_of_canRaise {i : Instr} (h : canRaise i .divideByZero = true) : i ∈ divides i.ty := by
  cases i with
  | div _ | divC _ | rem _ | remC _ | divrem _ | divremC _ => simp [divides, Instr.ty]
  | _ => cases h

/-- `canRaise` lists UnsupportedConversionError for the conversions of kinds 14 and 15 only (R245). -/
theorem mem_conversions_of_canRaise {i : Instr} (h : canRaise i .unsupportedConversion = true) :
    ∃ (ty : Ty) (kind : Kind), (kind = .none14 ∨ kind = .none15) ∧ i ∈ conversions ty kind := by
  cases i with
  | cvtto ty kind | cvttoC ty kind | cvttoSat ty kind | cvtfrom ty kind | cvtfromC ty kind | cvtfromSat ty kind =>
    exact ⟨ty, kind, by simpa [canRaise] using h, by simp [conversions]⟩
  | _ => cases h

/-! ### The obligations -/

/-- Settles O34: only the divide family can raise DivideByZeroError, and each of its instructions does exactly
on a zero divisor. -/
theorem zeroDivisorRaises : Obligations.ZeroDivisorRaises := by
  unfold Obligations.ZeroDivisorRaises
  intro i q
  refine (responds_iff i q _).trans ⟨fun h => ?_, ?_⟩
  · have hi := mem_divides_of_canRaise (canRaise_of_meaning_error h)
    exact ⟨⟨i.ty, hi⟩, (meaning_divide_eq_divideByZero_iff hi q).1 h⟩
  · rintro ⟨⟨ty, hi⟩, hzero⟩
    obtain rfl := ty_of_mem_divides hi
    exact (meaning_divide_eq_divideByZero_iff hi q).2 hzero

/-- Settles O53: only a conversion of kind 14 or 15 can raise UnsupportedConversionError, and each of them does, because
its kind has no mapping. -/
theorem unmappedKindsAreUnsupported : Obligations.UnmappedKindsAreUnsupported := by
  unfold Obligations.UnmappedKindsAreUnsupported
  intro i q
  refine (responds_iff i q _).trans ⟨fun h => ?_, ?_⟩
  · obtain ⟨ty, kind, hkind, hi⟩ := mem_conversions_of_canRaise (canRaise_of_meaning_error h)
    exact ⟨ty, kind, List.mem_pair.2 hkind, hi⟩
  · rintro ⟨ty, kind, hkind, hi⟩
    exact meaning_conversion_unmapped hi ((kindBits_eq_none_iff kind).2 (List.mem_pair.1 hkind)) q

end Sys2Proof.Proofs

/-! PROOFS. Encoder and decoder undo each other, and the opcode table's rows cover exactly the legal words, one row each
(30_encoding.md rules R60 to R69, R72). -/

namespace Sys2Proof.Proofs

open Sys2Proof Sys2Proof.Machine

/-! ### Words and fields -/

/-- The fields lie side by side in the word, so reading them back from R61's sum loses nothing. -/
theorem fieldsOf_wordOf (f : Fields) : fieldsOf (wordOf f) = f := by
  obtain ⟨rsv, kind, pol, s, wsel, opc⟩ := f
  have hrsv := rsv.isLt
  have hkind := kind.isLt
  have hpol := pol.isLt
  have hs := s.isLt
  have hwsel := wsel.isLt
  have hopc := opc.isLt
  simp only [fieldsOf, wordOf, Fields.mk.injEq, ← BitVec.toNat_inj, BitVec.extractLsb'_toNat, BitVec.toNat_ofNat,
    Nat.shiftRight_eq_div_pow]
  omega

/-- Every bit of a word lies in one of its fields. -/
theorem wordOf_fieldsOf (w : CmdWord) : wordOf (fieldsOf w) = w := by
  have hw := w.isLt
  simp only [fieldsOf, wordOf, ← BitVec.toNat_inj, BitVec.extractLsb'_toNat, BitVec.toNat_ofNat,
    Nat.shiftRight_eq_div_pow]
  omega

theorem tyOf_command (opc : BitVec 6) (pol : BitVec 2) (kind : BitVec 4) (ty : Ty) :
    tyOf (command opc pol kind ty) = ty := by
  obtain ⟨s, w⟩ := ty
  cases s <;> cases w <;> rfl

/-- Fields with RSV zero are a command for their own type (R63, R66 item 1). -/
theorem command_tyOf {f : Fields} (hrsv : f.rsv = 0) : command f.opc f.pol f.kind (tyOf f) = f := by
  obtain ⟨rsv, kind, pol, s, wsel, opc⟩ := f
  have hbit (b : BitVec 1) : b = 0 ∨ b = 1 := by revert b; decide
  cases hrsv
  rcases hbit s with rfl | rfl <;> rcases hbit wsel with rfl | rfl <;> rfl

theorem kindOf_code (kind : Kind) : kindOf kind.code = kind := by cases kind <;> rfl

theorem code_kindOf (k : BitVec 4) : (kindOf k).code = k := by
  revert k
  decide

/-! ### Decoding an encoded instruction -/

/-- A command of any of the rows: RSV is zero and the type is the one that was encoded, so decoding is the opcode map. -/
theorem decode_wordOf_command (opc : BitVec 6) (pol : BitVec 2) (kind : BitVec 4) (ty : Ty) :
    decode (wordOf (command opc pol kind ty)) = decodeOperation (command opc pol kind ty) ty := by
  have hrsv : ¬(command opc pol kind ty).rsv ≠ 0 := fun h => h rfl
  simp only [decode, fieldsOf_wordOf, tyOf_command, if_neg hrsv]

/-- KIND of an extension has only its bit 0 (R65). -/
theorem readKind_bits (isUnsigned : Bool) :
    (readKind isUnsigned).extractLsb' 1 3 = 0 ∧ (readKind isUnsigned).getLsbD 0 = isUnsigned := by
  cases isUnsigned <;> decide

theorem codecRead_eq_ok {f : Fields} {isUnsigned : Bool} (hpol : f.pol = 0) (hkind : f.kind = readKind isUnsigned)
    (read : Bool → Instr) : codecRead f read = .ok (read isUnsigned) := by
  obtain ⟨hupper, hbit⟩ := readKind_bits isUnsigned
  rw [codecRead, hpol, hkind, hupper, hbit, if_neg (not_not.2 rfl), if_neg (not_not.2 rfl)]

/-- Settles O2: the fields of a word are those it was made of, and the opcode map reads every instruction's own fields as
that instruction. -/
theorem decodeOfEncode : Obligations.DecodeOfEncode := by
  unfold Obligations.DecodeOfEncode
  intro i
  cases i with
  | cvtto ty kind | cvttoC ty kind | cvttoSat ty kind | cvtfrom ty kind | cvtfromC ty kind | cvtfromSat ty kind =>
    refine (decode_wordOf_command _ _ _ ty).trans ?_
    conv_rhs => rw [← kindOf_code kind]
    rfl
  | rdbe ty isUnsigned | rdle ty isUnsigned =>
    exact (decode_wordOf_command _ _ _ ty).trans (codecRead_eq_ok rfl rfl _)
  | _ => exact decode_wordOf_command _ _ _ _

/-! ### Encoding a decoded word -/

/-- A row without policy and kind accepts only the fields of its instruction. -/
theorem fields_of_noPolicy {f : Fields} {i j : Instr} (hrsv : f.rsv = 0) (hi : i.fields = command f.opc 0 0 (tyOf f))
    (h : noPolicy f i = .ok j) : j.fields = f := by
  unfold noPolicy at h
  split_ifs at h with hpol hkind
  cases h
  have hf := command_tyOf hrsv
  rwa [not_not.1 hpol, not_not.1 hkind, ← hi] at hf

/-- A row with two policies accepts only the fields of its wrapping and of its checked instruction. -/
theorem fields_of_twoPolicies {f : Fields} {i c j : Instr} (hrsv : f.rsv = 0)
    (hi : i.fields = command f.opc 0 0 (tyOf f)) (hc : c.fields = command f.opc 1 0 (tyOf f))
    (h : twoPolicies f i c = .ok j) : j.fields = f := by
  have hf := command_tyOf hrsv
  unfold twoPolicies at h
  split_ifs at h with hpol hkind hpol' hkind <;> cases h
  · rwa [hpol, not_not.1 hkind, ← hi] at hf
  · rwa [hpol', not_not.1 hkind, ← hc] at hf

/-- A conversion's row accepts only the fields of its three instructions, each with the kind KIND names. -/
theorem fields_of_threePolicies {f : Fields} {i c s : Kind → Instr} {j : Instr} (hrsv : f.rsv = 0)
    (hi : ∀ kind, (i kind).fields = command f.opc 0 kind.code (tyOf f))
    (hc : ∀ kind, (c kind).fields = command f.opc 1 kind.code (tyOf f))
    (hs : ∀ kind, (s kind).fields = command f.opc 2 kind.code (tyOf f))
    (h : threePolicies f i c s = .ok j) : j.fields = f := by
  have hf := command_tyOf hrsv
  rw [← code_kindOf f.kind] at hf
  unfold threePolicies at h
  split_ifs at h with h0 h1 h2 <;> cases h
  · rwa [h0, ← hi] at hf
  · rwa [h1, ← hc] at hf
  · rwa [h2, ← hs] at hf

/-- KIND of a codec read is its bit 0 when its upper bits are zero (R65, R66 item 5). -/
theorem readKind_getLsbD {k : BitVec 4} (h : k.extractLsb' 1 3 = 0) : readKind (k.getLsbD 0) = k := by
  revert k
  decide

/-- A codec read's row accepts only the fields of its instruction for the extension KIND names. -/
theorem fields_of_codecRead {f : Fields} {i : Bool → Instr} {j : Instr} (hrsv : f.rsv = 0)
    (hi : ∀ u, (i u).fields = command f.opc 0 (readKind u) (tyOf f)) (h : codecRead f i = .ok j) : j.fields = f := by
  have hf := command_tyOf hrsv
  unfold codecRead at h
  split_ifs at h with hpol hkind
  cases h
  rwa [not_not.1 hpol, ← readKind_getLsbD (not_not.1 hkind), ← hi] at hf

theorem opc_eq_ofNat {f : Fields} {n : Nat} (h : f.opc.toNat = n) : f.opc = BitVec.ofNat 6 n := by
  rw [← h, BitVec.ofNat_toNat, BitVec.setWidth_eq]

/-- The opcode map reads an instruction only from that instruction's own fields. -/
theorem fields_of_decodeOperation {f : Fields} {i : Instr} (hrsv : f.rsv = 0)
    (h : decodeOperation f (tyOf f) = .ok i) : i.fields = f := by
  unfold decodeOperation at h
  split at h
  -- The cases are numbered as the map's rows: 33 is no row, 27 and 28 are the conversions, 31 and 32 the codec reads, 4 to 9
  -- and 11 to 13 the operations with two policies, all others have no policy and no kind.
  case h_33 => cases h
  all_goals
    rename_i hopc
    replace hopc := opc_eq_ofNat hopc
  case h_27 | h_28 =>
    exact fields_of_threePolicies hrsv (fun _ => hopc ▸ rfl) (fun _ => hopc ▸ rfl) (fun _ => hopc ▸ rfl) h
  case h_31 | h_32 => exact fields_of_codecRead hrsv (fun _ => hopc ▸ rfl) h
  case h_4 | h_5 | h_6 | h_7 | h_8 | h_9 | h_11 | h_12 | h_13 =>
    exact fields_of_twoPolicies hrsv (hopc ▸ rfl) (hopc ▸ rfl) h
  all_goals exact fields_of_noPolicy hrsv (hopc ▸ rfl) h

theorem rsv_eq_zero_of_decode {w : CmdWord} {i : Instr} (h : decode w = .ok i) : (fieldsOf w).rsv = 0 := by
  unfold decode at h
  by_contra hrsv
  cases (if_pos hrsv).symm.trans h

theorem decodeOperation_of_decode {w : CmdWord} {i : Instr} (h : decode w = .ok i) :
    decodeOperation (fieldsOf w) (tyOf (fieldsOf w)) = .ok i := by
  rwa [decode, if_neg (not_not.2 (rsv_eq_zero_of_decode h))] at h

/-- Settles O3: a word that decodes has the fields of what it decodes to, and a word is the sum of its fields. -/
theorem encodeOfDecode : Obligations.EncodeOfDecode := by
  unfold Obligations.EncodeOfDecode
  intro w i h
  rw [encode, fields_of_decodeOperation (rsv_eq_zero_of_decode h) (decodeOperation_of_decode h), wordOf_fieldsOf]

/-! ### The opcode table -/

/-- Two rows that some bit tells apart: both masks cover it and the patterns differ in it. -/
def Apart (r s : OpcodeRow) : Prop := r.pattern &&& s.mask ≠ s.pattern &&& r.mask

theorem covers_iff (row : OpcodeRow) (w : CmdWord) : row.covers w = true ↔ w &&& row.mask = row.pattern := by
  rw [OpcodeRow.covers, beq_iff_eq]

/-- Rows that a bit tells apart have no word in common. -/
theorem Apart.not_covers {r s : OpcodeRow} (h : Apart r s) {w : CmdWord} (hr : r.covers w = true) :
    ¬s.covers w = true := by
  rw [covers_iff] at hr ⊢
  intro hs
  apply h
  rw [← hr, ← hs, BitVec.and_assoc, BitVec.and_assoc, BitVec.and_comm r.mask]

theorem opcodeTable_pairwise_apart : opcodeTable.Pairwise Apart := by
  unfold Apart
  decide

/-- In a list of rows that are told apart pairwise at most one covers a word. -/
theorem length_filter_covers_le_one {rows : List OpcodeRow} (h : rows.Pairwise Apart) (w : CmdWord) :
    (rows.filter fun row => row.covers w).length ≤ 1 := by
  induction h with
  | nil => exact Nat.zero_le 1
  | @cons r rows hr _ ih =>
    rw [List.filter_cons]
    split_ifs with hcover
    · have hnone : (rows.filter fun row => row.covers w) = [] :=
        List.filter_eq_nil_iff.2 fun s hs => (hr s hs).not_covers hcover
      rw [hnone, List.length_singleton]
    · exact ih

open Laws in
/-- The family of Laws/PerInstr.lean, for any instruction: its word is legal and its row of the table covers it. -/
theorem encodesItsRow : ∀ i : Instr, EncodesItsRow.Statement i
  | .cat ty => EncodesItsRow.cat ty
  | .upr ty => EncodesItsRow.upr ty
  | .lwr ty => EncodesItsRow.lwr ty
  | .add ty => EncodesItsRow.add ty
  | .addC ty => EncodesItsRow.addC ty
  | .sub ty => EncodesItsRow.sub ty
  | .subC ty => EncodesItsRow.subC ty
  | .neg ty => EncodesItsRow.neg ty
  | .negC ty => EncodesItsRow.negC ty
  | .inc ty => EncodesItsRow.inc ty
  | .incC ty => EncodesItsRow.incC ty
  | .dec ty => EncodesItsRow.dec ty
  | .decC ty => EncodesItsRow.decC ty
  | .mul ty => EncodesItsRow.mul ty
  | .mulC ty => EncodesItsRow.mulC ty
  | .bmul ty => EncodesItsRow.bmul ty
  | .div ty => EncodesItsRow.div ty
  | .divC ty => EncodesItsRow.divC ty
  | .rem ty => EncodesItsRow.rem ty
  | .remC ty => EncodesItsRow.remC ty
  | .divrem ty => EncodesItsRow.divrem ty
  | .divremC ty => EncodesItsRow.divremC ty
  | .and ty => EncodesItsRow.and ty
  | .or ty => EncodesItsRow.or ty
  | .xor ty => EncodesItsRow.xor ty
  | .not ty => EncodesItsRow.not ty
  | .shl ty => EncodesItsRow.shl ty
  | .shr ty => EncodesItsRow.shr ty
  | .shrl ty => EncodesItsRow.shrl ty
  | .rol ty => EncodesItsRow.rol ty
  | .ror ty => EncodesItsRow.ror ty
  | .lzc ty => EncodesItsRow.lzc ty
  | .tzc ty => EncodesItsRow.tzc ty
  | .popc ty => EncodesItsRow.popc ty
  | .cmp ty => EncodesItsRow.cmp ty
  | .cvtto ty kind => EncodesItsRow.cvtto ty kind
  | .cvttoC ty kind => EncodesItsRow.cvttoC ty kind
  | .cvttoSat ty kind => EncodesItsRow.cvttoSat ty kind
  | .cvtfrom ty kind => EncodesItsRow.cvtfrom ty kind
  | .cvtfromC ty kind => EncodesItsRow.cvtfromC ty kind
  | .cvtfromSat ty kind => EncodesItsRow.cvtfromSat ty kind
  | .wrbe ty => EncodesItsRow.wrbe ty
  | .wrle ty => EncodesItsRow.wrle ty
  | .rdbe ty isUnsigned => EncodesItsRow.rdbe ty isUnsigned
  | .rdle ty isUnsigned => EncodesItsRow.rdle ty isUnsigned

/-- The fields of a masked word are the masked fields (R61, R72). -/
theorem fieldsOf_and (w m : CmdWord) :
    fieldsOf (w &&& m) =
      { rsv := (fieldsOf w).rsv &&& (fieldsOf m).rsv, kind := (fieldsOf w).kind &&& (fieldsOf m).kind,
        pol := (fieldsOf w).pol &&& (fieldsOf m).pol, s := (fieldsOf w).s &&& (fieldsOf m).s,
        wsel := (fieldsOf w).wsel &&& (fieldsOf m).wsel, opc := (fieldsOf w).opc &&& (fieldsOf m).opc } := by
  simp only [fieldsOf, BitVec.extractLsb'_and]

/-- A row whose mask covers RSV, POL and OPC and that, with whatever bits of KIND its mask leaves open, is legal (R66). -/
def RowLegal (row : OpcodeRow) : Prop :=
  (fieldsOf row.mask).rsv = 3 ∧ (fieldsOf row.mask).pol = 3 ∧ (fieldsOf row.mask).opc = 63 ∧
    ∀ k : BitVec 4, k &&& (fieldsOf row.mask).kind = (fieldsOf row.pattern).kind →
      { fieldsOf row.pattern with kind := k }.wellFormed = true

theorem opcodeTable_rowLegal : ∀ row ∈ opcodeTable, RowLegal row := by
  unfold RowLegal
  decide

/-- The checks of R66 do not look at S and WSEL, which the rows leave open. -/
theorem wellFormed_congr {f g : Fields} (hrsv : f.rsv = g.rsv) (hpol : f.pol = g.pol) (hopc : f.opc = g.opc) :
    f.wellFormed = { g with kind := f.kind }.wellFormed := by
  obtain ⟨rsv, kind, pol, s, wsel, opc⟩ := f
  cases hrsv
  cases hpol
  cases hopc
  rfl

/-- A word that a legal row covers is legal: it has the row's RSV, POL and OPC and the bits of KIND the row asks for. -/
theorem RowLegal.wellFormed_of_covers {row : OpcodeRow} (hrow : RowLegal row) {w : CmdWord}
    (h : row.covers w = true) : (fieldsOf w).wellFormed = true := by
  obtain ⟨hrsv, hpol, hopc, hkind⟩ := hrow
  have hfields := (fieldsOf_and w row.mask).symm.trans (congrArg fieldsOf ((covers_iff row w).1 h))
  rw [hrsv, hpol, hopc] at hfields
  have hw : (fieldsOf w).wellFormed = { fieldsOf row.pattern with kind := (fieldsOf w).kind }.wellFormed :=
    wellFormed_congr (BitVec.and_allOnes.symm.trans (congrArg Fields.rsv hfields))
      (BitVec.and_allOnes.symm.trans (congrArg Fields.pol hfields))
      (BitVec.and_allOnes.symm.trans (congrArg Fields.opc hfields))
  exact hw.trans (hkind _ (congrArg Fields.kind hfields))

/-- A word decodes exactly when some row covers it (R72). -/
theorem exists_decode_eq_ok_iff_covers (w : CmdWord) :
    (∃ i, decode w = .ok i) ↔ ∃ row ∈ opcodeTable, row.covers w = true := by
  constructor
  · rintro ⟨i, hd⟩
    have hcover := (encodesItsRow i).2
    rw [encodeOfDecode w i hd, Option.map_eq_some_iff] at hcover
    obtain ⟨row, hrow, hcover⟩ := hcover
    exact ⟨row, List.mem_of_getElem? hrow, hcover⟩
  · rintro ⟨row, hrow, hcover⟩
    exact (exists_decode_eq_ok_iff w).2 ((opcodeTable_rowLegal row hrow).wellFormed_of_covers hcover)

/-- Settles O6: the rows are told apart pairwise, so at most one covers a word, and one does exactly when it decodes. -/
theorem legalWordsMatchOneTableRow : Obligations.LegalWordsMatchOneTableRow := by
  unfold Obligations.LegalWordsMatchOneTableRow
  intro w
  have hle := length_filter_covers_le_one opcodeTable_pairwise_apart w
  refine ⟨?_, hle⟩
  calc (∃ i, decode w = .ok i)
      ↔ ∃ row ∈ opcodeTable, row.covers w = true := exists_decode_eq_ok_iff_covers w
    _ ↔ 0 < (opcodeTable.filter fun row => row.covers w).length := List.length_filter_pos_iff.symm
    _ ↔ (opcodeTable.filter fun row => row.covers w).length = 1 := by omega

/-- Settles O1: each legal word of the table is the encoding of its line's instruction; the four illegal ones each fail the
check named first. -/
theorem workedEncodingsDecode : Obligations.WorkedEncodingsDecode := by
  unfold Obligations.WorkedEncodingsDecode
  exact ⟨decodeOfEncode (.add .u256), decodeOfEncode (.addC .u256), decodeOfEncode (.addC .s512),
    decodeOfEncode (.bmul .u256), decodeOfEncode (.div .s512), decodeOfEncode (.divrem .s256),
    decodeOfEncode (.shl .u256), decodeOfEncode (.shr .s512), decodeOfEncode (.cmp .s256),
    decodeOfEncode (.cvttoSat .s256 .i64), decodeOfEncode (.cvtfromC .u512 .i8), decodeOfEncode (.rdbe .s256 false),
    decodeOfEncode (.rdbe .s256 true), decodeOfEncode (.wrbe .u512), rfl, rfl, rfl, rfl⟩

end Sys2Proof.Proofs

/-! PROOFS. The shape of every instruction's response, said once, and what follows for the responses the unit gives: they are
ones it may give, with results zero-extended and errors listed (10_state.md rules R27 to R32, 60_exceptions.md rules R241 to
R246). -/

namespace Sys2Proof.Proofs

open Sys2Proof Sys2Proof.Machine

/-! ### The shape of a response -/

/-- What an instruction may answer (R27 to R32): R alone, R with C, R with RH, ORD alone, or R with T, each no wider than R28
says; or an error. -/
inductive ResponseShape (i : Instr) : Response → Prop
  | result {r : Port} (hr : r.toNat < 2 ^ resultBits i) : ResponseShape i (.value { r := r })
  | carry {r : Port} (c : Bool) (hr : r.toNat < 2 ^ resultBits i) : ResponseShape i (.value { r := r, c := c })
  | pair {r h : Port} (hr : r.toNat < 2 ^ resultBits i) (hh : h.toNat < 2 ^ i.ty.bits) :
      ResponseShape i (.value { r := r, rh := h })
  | order (x y : Int) : ResponseShape i (okOrd (ordering x y))
  | success {r : Port} (hr : r.toNat < 2 ^ resultBits i) : ResponseShape i (okTrue r)
  | error (k : ErrorKind) : ResponseShape i (.error k)

theorem port_toNat_lt {n : Nat} (v : BitVec n) : (port v).toNat < 2 ^ n := by
  rw [port, BitVec.toNat_setWidth]
  exact (Nat.mod_le _ _).trans_lt v.isLt

theorem shape_okR {i : Instr} {n : Nat} (hn : resultBits i = n) (v : BitVec n) : ResponseShape i (okR v) :=
  .result (hn ▸ port_toNat_lt v)

theorem shape_okRC {i : Instr} {n : Nat} (hn : resultBits i = n) (v : BitVec n) (c : Bool) :
    ResponseShape i (okRC v c) :=
  .carry c (hn ▸ port_toNat_lt v)

theorem shape_okRRH {i : Instr} {n : Nat} (hn : resultBits i = n) (hty : i.ty.bits = n) (v h : BitVec n) :
    ResponseShape i (okRRH v h) :=
  .pair (hn ▸ port_toNat_lt v) (hty ▸ port_toNat_lt h)

theorem shape_okFalse (i : Instr) : ResponseShape i okFalse :=
  .result (BitVec.toNat_zero.trans_lt (Nat.two_pow_pos _))

/-- A response that a test turns into an error has the shape of the response without it. -/
theorem shape_guard {i : Instr} {r : Response} (hr : ResponseShape i r) (test : Prop) [Decidable test]
    (k : ErrorKind) : ResponseShape i (if test then raise k else r) := by
  split_ifs
  · exact .error k
  · exact hr

/-! ### Counts (R173 to R175) -/

theorem zerosBelow_le {w : Nat} (a : BitVec w) (k : Nat) : zerosBelow a k ≤ k := by
  induction k with
  | zero => exact le_rfl
  | succ k ih =>
    rw [zerosBelow]
    split_ifs <;> omega

theorem zerosFrom_le {w : Nat} (a : BitVec w) (i k : Nat) : zerosFrom a i k ≤ k := by
  induction k generalizing i with
  | zero => exact le_rfl
  | succ k ih =>
    have hrest := ih (i + 1)
    rw [zerosFrom]
    split_ifs <;> omega

theorem onesBelow_le {w : Nat} (a : BitVec w) (k : Nat) : onesBelow a k ≤ k := by
  induction k with
  | zero => exact le_rfl
  | succ k ih => exact Nat.add_le_add ih (Bool.toNat_le _)

theorem bits_eq_two_pow_amountBits (ty : Ty) : ty.bits = 2 ^ amountBits ty := by
  obtain ⟨s, w⟩ := ty
  cases w <;> rfl

/-- Every count up to W fits the result of a count, which is one bit wider than an amount (R28). -/
theorem shape_okCount {i : Instr} {ty : Ty} (hi : resultBits i = amountBits ty + 1) {n : Nat} (hn : n ≤ ty.bits) :
    ResponseShape i (okCount n) := by
  refine .result ?_
  calc (port (BitVec.ofNat 512 n)).toNat
      ≤ n := by
        rw [port_toNat le_rfl, BitVec.toNat_ofNat]
        exact Nat.mod_le _ _
    _ ≤ 2 ^ amountBits ty := hn.trans_eq (bits_eq_two_pow_amountBits ty)
    _ < 2 ^ resultBits i := hi ▸ Nat.pow_lt_pow_succ one_lt_two

/-! ### Bytes on a port -/

theorem bytesNat_lt (qs : List Byte) : bytesNat qs < 2 ^ (8 * qs.length) := by
  induction qs with
  | nil => exact Nat.one_pos
  | cons q qs ih =>
    have hq := q.isLt
    rw [bytesNat, List.length_cons, Nat.mul_succ, pow_add]
    omega

theorem bytesPort_toNat_lt (qs : List Byte) : (bytesPort qs).toNat < 2 ^ (8 * qs.length) := by
  rw [bytesPort, BitVec.toNat_ofNat]
  exact (Nat.mod_le _ _).trans_lt (bytesNat_lt qs)

/-! ### The shared responses of the engines -/

theorem shape_addResponse {i : Instr} {ty : Ty} (hi : resultBits i = ty.bits) (checked : Bool)
    (a b : BitVec ty.bits) : ResponseShape i (addResponse checked ty a b) :=
  shape_guard (shape_okRC hi _ _) _ _

theorem shape_subResponse {i : Instr} {ty : Ty} (hi : resultBits i = ty.bits) (checked : Bool)
    (a b : BitVec ty.bits) : ResponseShape i (subResponse checked ty a b) :=
  shape_guard (shape_okRC hi _ _) _ _

theorem shape_divResponse {i : Instr} {ty : Ty} (hi : resultBits i = ty.bits) (q : Request) :
    ResponseShape i (divResponse ty q) := by
  unfold divResponse
  split
  · exact .error _
  · exact shape_okR hi _

theorem shape_remResponse {i : Instr} {ty : Ty} (hi : resultBits i = ty.bits) (q : Request) :
    ResponseShape i (remResponse ty q) := by
  unfold remResponse
  split
  · exact .error _
  · exact shape_okR hi _

theorem shape_divremResponse {i : Instr} {ty : Ty} (hi : resultBits i = ty.bits) (hty : i.ty.bits = ty.bits)
    (q : Request) : ResponseShape i (divremResponse ty q) := by
  unfold divremResponse
  split
  · exact .error _
  · exact shape_okRRH hi hty _ _

theorem shape_convertResponse {i : Instr} {k : Nat} (hi : resultBits i = k) (pol : Policy) (signed : Bool) (x : Int) :
    ResponseShape i (convertResponse pol signed k x) := by
  unfold convertResponse
  split
  · exact shape_okR hi _
  · exact .error _

theorem shape_cvttoResponse {i : Instr} {kind : Kind} (hi : resultBits i = (kindBits kind).getD 0) (pol : Policy)
    (ty : Ty) (q : Request) : ResponseShape i (cvttoResponse pol ty kind q) := by
  unfold cvttoResponse
  split
  next => exact .error _
  next k hk => exact shape_convertResponse (hi.trans (by rw [hk, Option.getD_some])) _ _ _

theorem shape_cvtfromResponse {i : Instr} {ty : Ty} (hi : resultBits i = ty.bits) (pol : Policy) (kind : Kind)
    (q : Request) : ResponseShape i (cvtfromResponse pol ty kind q) := by
  unfold cvtfromResponse
  split
  · exact .error _
  · exact shape_convertResponse hi _ _ _

theorem shape_writeResponse {i : Instr} {ty : Ty} (hi : resultBits i = ty.bits) (q : Request) {bytes : List Byte}
    (hlen : bytes.length = ty.width.bytes) : ResponseShape i (writeResponse ty q bytes) := by
  have hbits : 8 * bytes.length = resultBits i := by rw [hlen, ty.width.bytes_mul, hi]
  unfold writeResponse
  split_ifs
  · exact .success (hbits ▸ bytesPort_toNat_lt bytes)
  · exact shape_okFalse i

theorem shape_readValueResponse {i : Instr} {ty : Ty} (hi : resultBits i = ty.bits) (x : Int) :
    ResponseShape i (readValueResponse ty x) := by
  unfold readValueResponse
  split_ifs
  · exact .success (hi ▸ port_toNat_lt _)
  · exact shape_okFalse i

theorem bigEndian_length {w : Nat} (n : Nat) (v : BitVec w) : (bigEndian n v).length = n := by simp [bigEndian]

theorem littleEndian_length {w : Nat} (n : Nat) (v : BitVec w) : (littleEndian n v).length = n := by
  simp [littleEndian]

/-- The shape of all 45 meanings at once. -/
theorem meaning_shape (i : Instr) (q : Request) : ResponseShape i (meaning i q) := by
  cases i with
  | cat ty => exact shape_okR (i := .cat ty) ty.width.half_add_half.symm _
  | upr ty | lwr ty => exact shape_okR rfl _
  | add ty | addC ty | inc ty | incC ty =>
    simp only [meaning]
    exact shape_addResponse rfl _ _ _
  | sub ty | subC ty | neg ty | negC ty | dec ty | decC ty =>
    simp only [meaning]
    exact shape_subResponse rfl _ _ _
  | mul ty => exact shape_okR rfl _
  | mulC ty =>
    simp only [meaning]
    split_ifs
    · exact shape_okR rfl _
    · exact .error _
  | bmul ty => exact shape_okRRH rfl rfl _ _
  | div ty | divC ty => exact shape_divResponse rfl q
  | rem ty | remC ty => exact shape_remResponse rfl q
  | divrem ty | divremC ty => exact shape_divremResponse rfl rfl q
  | and ty | or ty | xor ty | not ty | shl ty | shrl ty | rol ty | ror ty => exact shape_okR rfl _
  | shr ty => exact meaning_shr ty q ▸ shape_okR rfl _
  | lzc ty => exact shape_okCount rfl (zerosBelow_le _ _)
  | tzc ty => exact shape_okCount rfl (zerosFrom_le _ _ _)
  | popc ty => exact shape_okCount rfl (onesBelow_le _ _)
  | cmp ty => exact .order _ _
  | cvtto ty kind | cvttoC ty kind | cvttoSat ty kind => exact shape_cvttoResponse rfl _ ty q
  | cvtfrom ty kind | cvtfromC ty kind | cvtfromSat ty kind => exact shape_cvtfromResponse rfl _ kind q
  | wrbe ty => exact shape_writeResponse rfl q (bigEndian_length _ _)
  | wrle ty => exact shape_writeResponse rfl q (littleEndian_length _ _)
  | rdbe ty isUnsigned | rdle ty isUnsigned => exact shape_guard (shape_readValueResponse rfl _) _ _

/-! ### The obligations -/

/-- Settles O15: the inversion of all meanings by `canRaise`. -/
theorem onlyListedErrorsAreRaised : Obligations.OnlyListedErrorsAreRaised := by
  unfold Obligations.OnlyListedErrorsAreRaised
  intro i q k h
  exact canRaise_of_meaning_error ((responds_iff i q _).1 h)

theorem canRaise_formatError (i : Instr) : canRaise i .formatError = false := by cases i <;> rfl

/-- A response of any instruction is one the unit may give: its shape leaves the fields zero that R32 leaves zero, and no
instruction raises FormatError. -/
theorem responseLegal_meaning (i : Instr) (q : Request) : responseLegal (meaning i q) = true := by
  have hshape := meaning_shape i q
  generalize hm : meaning i q = response at hshape
  cases hshape with
  | result | pair | success => simp [responseLegal, okTrue]
  | carry c => cases c <;> simp [responseLegal]
  | order x y =>
    obtain ⟨-, -, -, hthree⟩ := ordering_spec x y
    simpa [responseLegal, okOrd] using hthree
  | error k =>
    cases k with
    | formatError => cases (canRaise_formatError i).symm.trans (canRaise_of_meaning_error hm)
    | _ => rfl

/-- Settles O11: a step adds one response, which is a meaning's or IllegalRequest. -/
theorem stepKeepsResponsesLegal : Obligations.StepKeepsResponsesLegal := by
  unfold Obligations.StepKeepsResponsesLegal
  intro s t hs hstep r hr
  obtain ⟨q, rest, -, ⟨i, -, rfl⟩ | ⟨e, -, rfl⟩⟩ := step_cases hstep
  all_goals
    rw [List.mem_append, List.mem_singleton] at hr
    rcases hr with hgiven | rfl
  · exact hs r hgiven
  · exact responseLegal_meaning i q
  · exact hs r hgiven
  · rfl

/-- Settles O12: after reset no response has been given. -/
theorem resetResponsesLegal : Obligations.ResetResponsesLegal := by
  unfold Obligations.ResetResponsesLegal State.Legal
  rw [reset_responses]
  exact fun r hr => absurd hr List.not_mem_nil

theorem getLsbD_eq_false_of_toNat_lt {w n : Nat} {v : BitVec w} (h : v.toNat < 2 ^ n) {j : Nat} (hj : n ≤ j) :
    v.getLsbD j = false :=
  Nat.testBit_eq_false_of_lt (h.trans_le (Nat.pow_le_pow_right two_pos hj))

/-- The bounds that the shape of a value response gives for R and RH (R28). -/
theorem ResponseShape.toNat_lt {i : Instr} {r : Response} (h : ResponseShape i r) {v : Value} (hv : r = .value v) :
    v.r.toNat < 2 ^ resultBits i ∧ v.rh.toNat < 2 ^ i.ty.bits := by
  have hzero (n : Nat) : (0 : Port).toNat < 2 ^ n := BitVec.toNat_zero.trans_lt (Nat.two_pow_pos n)
  cases h with
  | result hr | carry _ hr | success hr =>
    obtain rfl := Response.value.inj hv
    exact ⟨hr, hzero _⟩
  | pair hr hh =>
    obtain rfl := Response.value.inj hv
    exact ⟨hr, hh⟩
  | order x y =>
    obtain rfl := Response.value.inj hv
    exact ⟨hzero _, hzero _⟩
  | error k => cases hv

/-- Settles O17: by the bounds of the response's shape. -/
theorem resultsAreZeroExtended : Obligations.ResultsAreZeroExtended := by
  unfold Obligations.ResultsAreZeroExtended
  intro i q v h j
  obtain ⟨hr, hrh⟩ := (meaning_shape i q).toNat_lt ((responds_iff i q _).1 h)
  exact ⟨getLsbD_eq_false_of_toNat_lt hr, getLsbD_eq_false_of_toNat_lt hrh⟩

/-- Settles O14: the codes by their table; a value has code 0 and no error has. -/
theorem errorCodesAsListed : Obligations.ErrorCodesAsListed := by
  unfold Obligations.ErrorCodesAsListed
  refine ⟨rfl, rfl, rfl, rfl, rfl, fun r => ?_⟩
  cases r with
  | value v => exact ⟨⟨fun _ => ⟨v, rfl⟩, fun _ => rfl⟩, nofun, nofun⟩
  | error k =>
    cases k <;> simp [responseCode, errorCode]

end Sys2Proof.Proofs

/-! PROOFS. Transactions in sequence: what a step runs and when it stops, a queue of requests answered in order, the reset
event, and a requester's list that ends at its first error (20_memory.md rules R50, R51, 70_reset_and_hazards.md rules R270,
R271, 60_exceptions.md rule R251). -/

namespace Sys2Proof.Proofs

open Sys2Proof Sys2Proof.Machine

/-! ### One step -/

/-- Settles O7: by what a step does with a command word that decodes. -/
theorem stepRunsDecodedInstruction : Obligations.StepRunsDecodedInstruction := by
  unfold Obligations.StepRunsDecodedInstruction
  intro q rest given i hd
  exact step_of_decode_ok hd rest given

/-- Settles O8: a step has no command word to read, and every meaning is one transaction, which has no request to answer. -/
theorem noRequestNoTransaction : Obligations.NoRequestNoTransaction := by
  unfold Obligations.NoRequestNoTransaction
  intro given i
  exact ⟨rfl, (exec_eq_transact i _).trans (transact_nil given _)⟩

/-- Settles O13: the state after a reset event has an empty queue and the old record, so a request presented next is the
oldest. -/
theorem resetDropsTransactionsInFlight : Obligations.ResetDropsTransactionsInFlight := by
  unfold Obligations.ResetDropsTransactionsInFlight
  exact ⟨reset_inFlight, fun s => ⟨resetEvent_inFlight s, resetEvent_responses s, fun q r h => h [] s.responses⟩⟩

/-! ### A queue of requests -/

theorem run_succ_of_step (M : Host.Core) {s t : M.State} (h : M.step s = .next t) (k : Nat) :
    M.run (k + 1) s = M.run k t := by
  rw [Host.Core.run, h]

theorem core_run_succ_of_step {s t : State} (h : step s = .next t) (k : Nat) :
    Sys2Proof.core.run (k + 1) s = Sys2Proof.core.run k t :=
  run_succ_of_step Sys2Proof.core (s := s) (t := t) h k

/-- Settles O10: by induction on the queue, the oldest request being answered as if alone. -/
theorem requestsAnsweredInOrder : Obligations.RequestsAnsweredInOrder := by
  unfold Obligations.RequestsAnsweredInOrder
  intro requests
  induction requests with
  | nil => exact fun given => ⟨[], .nil, by rw [List.append_nil]; rfl⟩
  | cons q rest ih =>
    intro given
    obtain ⟨r, hr⟩ := everyRequestIsAnsweredFromItself q
    obtain ⟨rs, halone, hrun⟩ := ih (given ++ [r])
    refine ⟨r :: rs, .cons (hr [] []) halone, ?_⟩
    calc Sys2Proof.core.run (rest.length + 1) (⟨q :: rest, given⟩ : State)
        = Sys2Proof.core.run rest.length (⟨rest, given ++ [r]⟩ : State) :=
          core_run_succ_of_step (hr rest given) rest.length
      _ = .next (⟨[], given ++ [r] ++ rs⟩ : State) := hrun
      _ = .next (⟨[], given ++ r :: rs⟩ : State) := by rw [List.append_assoc, List.singleton_append]

/-! ### A requester's list -/

/-- Every labelled response is a value response. -/
def AllValues (env : Labelled) : Prop := ∀ entry ∈ env, ∃ v, entry.2 = .value v

/-- Value responses, then at most one error response and nothing after it (R251). -/
def StopsAtError (env : Labelled) : Prop :=
  AllValues env ∨ ∃ init label k, env = init ++ [(label, .error k)] ∧ AllValues init

theorem AllValues.append_value {env : Labelled} (h : AllValues env) (label : Nat) (v : Value) :
    AllValues (env ++ [(label, .value v)]) := by
  intro entry hentry
  rcases List.mem_append.1 hentry with henv | hlast
  · exact h entry henv
  · exact ⟨v, congrArg Prod.snd (List.mem_singleton.1 hlast)⟩

/-- A list run with only value responses so far goes on while responses are values and ends with the first error. -/
theorem runLines_stopsAtError (p : Program) (s : State) {env : Labelled} (h : AllValues env) :
    StopsAtError (runLines s env p).2 := by
  induction p generalizing s env with
  | nil => exact .inl h
  | cons l ls ih =>
    unfold runLines
    split
    next => exact .inl h
    next t v _ => exact ih t (h.append_value l.label v)
    next t k _ => exact .inr ⟨env, l.label, k, rfl, h⟩

/-- In such a list the error response is the last. -/
theorem StopsAtError.of_eq_append {env before after : Labelled} {label : Nat} {k : ErrorKind} (h : StopsAtError env)
    (heq : env = before ++ (label, .error k) :: after) : after = [] ∧ AllValues before := by
  have herror {l : Labelled} (hl : AllValues l) : (label, Response.error k) ∉ l := fun hmem => by
    obtain ⟨v, hv⟩ := hl _ hmem
    cases hv
  rcases h with hall | ⟨init, label', k', rfl, hinit⟩
  · exact absurd (heq ▸ List.mem_append_right before List.mem_cons_self) (herror hall)
  · rcases List.eq_nil_or_concat after with rfl | ⟨rest, last, rfl⟩
    · obtain ⟨rfl, -⟩ := List.append_inj' heq rfl
      exact ⟨rfl, hinit⟩
    · rw [List.concat_eq_append, ← List.cons_append, ← List.append_assoc] at heq
      obtain ⟨rfl, -⟩ := List.append_inj' heq rfl
      exact absurd (List.mem_append_right before List.mem_cons_self) (herror hinit)

/-- Settles O59: a program's responses stop at the first error. -/
theorem listStopsAtFirstError : Obligations.ListStopsAtFirstError := by
  unfold Obligations.ListStopsAtFirstError
  intro p before after label k heq
  have hnone : AllValues [] := fun _ hmem => absurd hmem List.not_mem_nil
  exact (runLines_stopsAtError p State.reset hnone).of_eq_append heq

end Sys2Proof.Proofs

/-! PROOFS. What a response depends on: only the port bits the operation reads, and not on S where signedness does not matter;
and the laws of composition (10_state.md rules R26, R32, 30_encoding.md rule R63, 40_limb_composition.md rule R94). -/

namespace Sys2Proof.Proofs

open Sys2Proof Sys2Proof.Machine

/-! ### Ignored port bits -/

/-- An amount takes the low 8 or 9 bits of B (R68, R166). -/
theorem amount_congr {ty : Ty} {q q' : Request} (h : q.b.setWidth (amountBits ty) = q'.b.setWidth (amountBits ty)) :
    amount ty q = amount ty q' := by
  simpa only [amount_eq, bits_eq_two_pow_amountBits, BitVec.toNat_setWidth] using congrArg BitVec.toNat h

theorem byteCount_congr {q q' : Request} (h : q.b.setWidth 512 = q'.b.setWidth 512) : byteCount q = byteCount q' := by
  rw [BitVec.setWidth_eq, BitVec.setWidth_eq] at h
  rw [byteCount, byteCount, h]

/-- The first n byte lanes are the low 8n bits (R43). -/
theorem portBytes_congr {n m : Nat} (hm : 8 * n ≤ m) {p p' : Port} (h : p.setWidth m = p'.setWidth m) :
    portBytes n p = portBytes n p' := by
  refine List.map_congr_left fun i hi => BitVec.eq_of_getLsbD_eq fun j hj => ?_
  have hlow : 8 * i + j < m := by
    have hin := List.mem_range.1 hi
    omega
  have hbit := congrArg (fun v => v.getLsbD (8 * i + j)) h
  simpa [byte, BitVec.getLsbD_extractLsb', hj, hlow] using hbit

theorem sourceBytes_congr {q q' : Request} (hlen : ¬Config.portBytes < byteCount q)
    (ha : q.a.setWidth (min 512 (8 * byteCount q)) = q'.a.setWidth (min 512 (8 * byteCount q)))
    (hb : q.b.setWidth 512 = q'.b.setWidth 512) : sourceBytes q = sourceBytes q' := by
  rw [Config.portBytes] at hlen
  rw [sourceBytes, sourceBytes, ← byteCount_congr hb]
  exact portBytes_congr (by omega) ha

/-- A read sees the byte count and, where it is legal, the source bytes (R226). -/
theorem rdbeResponse_congr (ty : Ty) (isUnsigned : Bool) {q q' : Request}
    (ha : q.a.setWidth (min 512 (8 * byteCount q)) = q'.a.setWidth (min 512 (8 * byteCount q)))
    (hb : q.b.setWidth 512 = q'.b.setWidth 512) : rdbeResponse ty isUnsigned q = rdbeResponse ty isUnsigned q' := by
  unfold rdbeResponse
  rw [← byteCount_congr hb]
  split_ifs with hlen
  · rfl
  · rw [sourceBytes_congr hlen ha hb]

theorem rdleResponse_congr (ty : Ty) (isUnsigned : Bool) {q q' : Request}
    (ha : q.a.setWidth (min 512 (8 * byteCount q)) = q'.a.setWidth (min 512 (8 * byteCount q)))
    (hb : q.b.setWidth 512 = q'.b.setWidth 512) : rdleResponse ty isUnsigned q = rdleResponse ty isUnsigned q' := by
  unfold rdleResponse
  rw [← byteCount_congr hb]
  split_ifs with hlen
  · rfl
  · rw [sourceBytes_congr hlen ha hb]

/-- CVTFROM sees the low k bits of A, and nothing for a kind with no width (R206). -/
theorem cvtfromResponse_congr (pol : Policy) (ty : Ty) {kind : Kind} {q q' : Request}
    (ha : q.a.setWidth ((kindBits kind).getD 0) = q'.a.setWidth ((kindBits kind).getD 0)) :
    cvtfromResponse pol ty kind q = cvtfromResponse pol ty kind q' := by
  unfold cvtfromResponse
  cases hk : kindBits kind with
  | none => rfl
  | some k =>
    rw [hk] at ha
    have hsource : sourceA k q = sourceA k q' := ha
    simp only [hsource]

/-- Requests that agree on the bits an instruction reads get one response from it. -/
theorem meaning_congr {i : Instr} {q q' : Request}
    (ha : q.a.setWidth (bitsReadA (byteCount q) i) = q'.a.setWidth (bitsReadA (byteCount q) i))
    (hb : q.b.setWidth (bitsReadB i) = q'.b.setWidth (bitsReadB i)) : meaning i q = meaning i q' := by
  cases i with
  | cat ty =>
    have hhalfA : halfA ty q = halfA ty q' := ha
    have hhalfB : halfB ty q = halfB ty q' := hb
    simp only [meaning, hhalfA, hhalfB]
  | upr ty | lwr ty | neg ty | negC ty | inc ty | incC ty | dec ty | decC ty | not ty | lzc ty | tzc ty | popc ty =>
    have hA : operandA ty q = operandA ty q' := ha
    simp only [meaning, hA]
  | add ty | addC ty | sub ty | subC ty | and ty | or ty | xor ty | cmp ty =>
    have hA : operandA ty q = operandA ty q' := ha
    have hB : operandB ty q = operandB ty q' := hb
    simp only [meaning, hA, hB]
  | mul ty | mulC ty | bmul ty =>
    have hA : operandA ty q = operandA ty q' := ha
    have hB : operandB ty q = operandB ty q' := hb
    have hproduct : exactProduct ty q = exactProduct ty q' := by rw [exactProduct, exactProduct, hA, hB]
    simp only [meaning, wideProduct, hproduct]
  | div ty | divC ty | rem ty | remC ty | divrem ty | divremC ty =>
    have hA : operandA ty q = operandA ty q' := ha
    have hB : operandB ty q = operandB ty q' := hb
    simp only [meaning, divResponse, remResponse, divremResponse, hA, hB]
  | shl ty | shr ty | shrl ty | rol ty | ror ty =>
    have hA : operandA ty q = operandA ty q' := ha
    simp only [meaning, hA, amount_congr hb]
  | cvtto ty kind | cvttoC ty kind | cvttoSat ty kind =>
    have hA : operandA ty q = operandA ty q' := ha
    simp only [meaning, cvttoResponse, hA]
  | cvtfrom ty kind | cvtfromC ty kind | cvtfromSat ty kind => exact cvtfromResponse_congr _ ty ha
  | wrbe ty | wrle ty =>
    have hA : operandA ty q = operandA ty q' := ha
    simp only [meaning, writeResponse, hA, byteCount_congr hb]
  | rdbe ty isUnsigned => exact rdbeResponse_congr ty isUnsigned ha hb
  | rdle ty isUnsigned => exact rdleResponse_congr ty isUnsigned ha hb

/-- Settles O16: an instruction answers with its meaning, which sees only the bits it reads. -/
theorem ignoredPortBitsDoNotMatter : Obligations.IgnoredPortBitsDoNotMatter := by
  unfold Obligations.IgnoredPortBitsDoNotMatter
  intro i q q' ha hb r h
  rw [responds_iff] at h ⊢
  exact (meaning_congr ha hb).symm.trans h

/-! ### Signedness -/

/-- The product's low W bits are those of the patterns' product, whichever way they are read (R121). -/
theorem meaning_mul_signBlind (w : Width) (q : Request) :
    meaning (.mul ⟨false, w⟩) q = meaning (.mul ⟨true, w⟩) q :=
  congrArg okR ((bv_exactProduct ⟨false, w⟩ q).trans (bv_exactProduct ⟨true, w⟩ q).symm)

/-- Settles O18: apart from MUL the meanings of the list do not mention S. -/
theorem signBitDoesNotMatter : Obligations.SignBitDoesNotMatter := by
  unfold Obligations.SignBitDoesNotMatter
  intro op hop w q
  suffices hm : meaning (op ⟨false, w⟩) q = meaning (op ⟨true, w⟩) q from
    ⟨_, (responds_iff _ q _).2 rfl, (responds_iff _ q _).2 hm.symm⟩
  simp only [signBlind, List.cons_append, List.nil_append, List.mem_cons, List.not_mem_nil, or_false] at hop
  rcases hop with rfl | rfl | rfl | rfl | rfl | rfl | rfl | rfl | hmul | rfl | rfl | rfl | rfl | rfl | rfl | rfl | rfl | rfl |
    rfl | rfl | rfl | rfl
  any_goals rfl
  exact hmul ▸ meaning_mul_signBlind w q

/-! ### Composition -/

/-- The two halves of a value, put together, have its bits (R94). -/
theorem upperHalf_append_lowerHalf_getLsbD (ty : Ty) (v : BitVec ty.bits) (j : Nat) :
    (upperHalf ty v ++ lowerHalf ty v).getLsbD j = v.getLsbD j := by
  have hW := halfBits_add_halfBits ty
  rw [upperHalf, lowerHalf, BitVec.extractLsb'_append_extractLsb'_eq_extractLsb' (Nat.zero_add _).symm,
    BitVec.getLsbD_extractLsb', Nat.zero_add, hW]
  by_cases hj : j < ty.bits
  · simp [hj]
  · simp [hj, BitVec.getLsbD_of_ge v j (by omega)]

theorem port_upperHalf_append_lowerHalf (ty : Ty) (v : BitVec ty.bits) :
    port (upperHalf ty v ++ lowerHalf ty v) = port v := by
  have hfit : ty.width.halfBits + ty.width.halfBits ≤ 512 := halfBits_add_halfBits ty ▸ ty.bits_le_port
  refine BitVec.eq_of_getLsbD_eq fun j _ => ?_
  rw [port_getLsbD hfit, port_getLsbD ty.bits_le_port, upperHalf_append_lowerHalf_getLsbD]

/-- The upper half of a composed value on a port is its upper part (R94). -/
theorem upperHalf_port_append (ty : Ty) (x y : BitVec ty.width.halfBits) (b : Port) :
    upperHalf ty (operandA ty (ports (port (x ++ y)) b)) = x := by
  have hW := halfBits_add_halfBits ty
  have hfit : ty.width.halfBits + ty.width.halfBits ≤ 512 := hW ▸ ty.bits_le_port
  refine BitVec.eq_of_getLsbD_eq fun j hj => ?_
  rw [upperHalf_operandA_getLsbD, if_pos hj, ports, port_getLsbD hfit, BitVec.getLsbD_append,
    if_neg (by omega), Nat.add_sub_cancel]

/-- The lower half of a composed value on a port is its lower part (R94). -/
theorem lowerHalf_port_append (ty : Ty) (x y : BitVec ty.width.halfBits) (b : Port) :
    lowerHalf ty (operandA ty (ports (port (x ++ y)) b)) = y := by
  have hfit : ty.width.halfBits + ty.width.halfBits ≤ 512 := halfBits_add_halfBits ty ▸ ty.bits_le_port
  refine BitVec.eq_of_getLsbD_eq fun j hj => ?_
  rw [lowerHalf_operandA_getLsbD, if_pos hj, ports, port_getLsbD hfit, BitVec.getLsbD_append, if_pos hj]

/-- CAT of two halves on ports is the composed value. -/
theorem meaning_cat_ports (ty : Ty) (x y : BitVec ty.width.halfBits) :
    meaning (.cat ty) (ports (port x) (port y)) = okR (x ++ y) := by
  have hfit := halfBits_le_port ty.width
  simp only [meaning, halfA, halfB, ports, setWidth_port hfit]

/-- Settles O21: both ways by the bits of the halves and of the composed value. -/
theorem catAndHalvesAreInverse : Obligations.CatAndHalvesAreInverse := by
  unfold Obligations.CatAndHalvesAreInverse
  intro ty x y
  simp only [responds_iff]
  refine ⟨⟨_, _, rfl, rfl, ?whole⟩, _, rfl, ?upper, ?lower⟩
  case whole =>
    rw [meaning_cat_ports, okR, port_upperHalf_append_lowerHalf]
    rfl
  case upper => exact congrArg okR (upperHalf_port_append ty (x.setWidth _) (y.setWidth _) 0)
  case lower => exact congrArg okR (lowerHalf_port_append ty (x.setWidth _) (y.setWidth _) 0)

end Sys2Proof.Proofs

/-! PROOFS. The rest of the add/sub engine: what SUB and NEG answer, that the checked tests say exactly when the exact result is
not representable, and the laws of addition (41_add_sub.md rules R104 to R106, R109). -/

namespace Sys2Proof.Proofs

open Sys2Proof Sys2Proof.Machine

/-! ### SUB and NEG -/

/-- The difference with its borrow in front is the exact difference (R104). -/
theorem sub_toNat_add_borrow {n : Nat} (a b : BitVec n) :
    (a - b).toNat + b.toNat = a.toNat + (if borrowOut a b then 2 ^ n else 0) := by
  have ha := a.isLt
  have hb := b.isLt
  rw [BitVec.toNat_sub]
  simp only [borrowOut_iff]
  split_ifs with hborrow
  · rw [Nat.mod_eq_of_lt (by omega)]
    omega
  · rw [Nat.mod_eq_sub_mod (by omega), Nat.mod_eq_of_lt (by omega)]
    omega

theorem subOverflows_iff {n : Nat} (signed : Bool) (a b r : BitVec n) :
    subOverflows signed a b r = true ↔
      if signed then a.msb ≠ b.msb ∧ r.msb ≠ a.msb else borrowOut a b = true := by
  cases signed <;> simp [subOverflows, sign]

/-- Settles O23: the words by R61's sum, the response by the difference of the patterns with its borrow in front, the
checked policy by R104's test on that difference. -/
theorem subFollowsItsRule : Obligations.SubFollowsItsRule := by
  unfold Obligations.SubFollowsItsRule
  intro ty q
  have hfit := ty.bits_le_port
  have hw := subResponse_wrapping ty (operandA ty q) (operandB ty q)
  have hc := subResponse_checked ty (operandA ty q) (operandB ty q)
  refine ⟨wordOf_command_toNat 0x09 0 0 ty, wordOf_command_toNat 0x09 1 0 ty,
    { r := port (operandA ty q - operandB ty q), c := borrowOut (operandA ty q) (operandB ty q) },
    (responds_iff _ q _).2 hw, ⟨rfl, rfl, rfl⟩, ?bound, ?difference, raises_or_returns hc ?test⟩
  case bound =>
    rw [port_toNat hfit]
    exact BitVec.isLt _
  case difference =>
    rw [port_toNat hfit]
    exact sub_toNat_add_borrow _ _
  case test =>
    rw [port_getLsbD hfit, ← BitVec.msb_eq_getLsbD_last]
    exact subOverflows_iff ty.signed _ _ _

theorem borrowOut_zero_iff {n : Nat} (a : BitVec n) : borrowOut 0 a = true ↔ a ≠ 0 := by
  have hzero : (0 : BitVec n).toNat = 0 := BitVec.toNat_zero
  rw [borrowOut_iff, hzero, Nat.pos_iff_ne_zero, ne_eq, ne_eq, ← BitVec.toNat_inj, hzero]

/-- Only the least signed value has no negation. -/
theorem ssubOverflow_zero_iff {n : Nat} (hn : 0 < n) (a : BitVec n) :
    (0 : BitVec n).ssubOverflow a = true ↔ a = BitVec.intMin n := by
  have hlow := BitVec.le_toInt a
  have hhigh := BitVec.toInt_lt (x := a)
  have hzero : (0 : BitVec n).toInt = 0 := BitVec.toInt_zero
  rw [← BitVec.toInt_inj, BitVec.toInt_intMin_of_pos hn]
  simp only [BitVec.ssubOverflow, hzero, Bool.or_eq_true, decide_eq_true_eq]
  omega

/-- Negating fails for every nonzero unsigned value and for the least signed one (R106). -/
theorem subOverflows_zero_iff (ty : Ty) (a : BitVec ty.bits) :
    subOverflows ty.signed 0 a (0 - a) = true ↔ if ty.signed then a = minPattern ty else a ≠ 0 := by
  cases ty.signed with
  | false => exact borrowOut_zero_iff a
  | true =>
    rw [subOverflows_signed, minPattern_eq_intMin, if_pos rfl]
    exact ssubOverflow_zero_iff ty.bits_pos a

/-- Settles O24: NEG is SUB from zero, which borrows and fails exactly as stated. -/
theorem negFollowsItsRule : Obligations.NegFollowsItsRule := by
  unfold Obligations.NegFollowsItsRule
  intro ty q
  have hw := subResponse_wrapping ty 0 (operandA ty q)
  have hc := subResponse_checked ty 0 (operandA ty q)
  have hneg : 0 - operandA ty q = ~~~(operandA ty q) + 1 :=
    (BitVec.zero_sub _).trans (BitVec.neg_eq_not_add _)
  exact ⟨wordOf_command_toNat 0x0A 0 0 ty, wordOf_command_toNat 0x0A 1 0 ty,
    { r := port (0 - operandA ty q), c := borrowOut 0 (operandA ty q) },
    (responds_iff _ q _).2 hw, ⟨rfl, rfl, rfl⟩, congrArg port hneg, borrowOut_zero_iff _,
    raises_or_returns hc (subOverflows_zero_iff ty _)⟩

/-! ### Representable results (R105) -/

/-- Adding fails exactly when the exact sum does not fit. -/
theorem addOverflows_iff_not_fits {signed : Bool} {n : Nat} (a b : BitVec n) :
    addOverflows signed a b (a + b) = true ↔ ¬fits signed n (val signed a + val signed b) = true := by
  rw [fits_iff]
  cases signed with
  | false =>
    have ha := uval_nonneg a
    have hb := uval_nonneg b
    simp only [addOverflows, carryOut, val, minVal, maxVal, Bool.false_eq_true, if_false, decide_eq_true_eq]
    omega
  | true =>
    rw [addOverflows_signed, BitVec.saddOverflow]
    simp only [val, sval, minVal, maxVal, pow2, if_true, Bool.or_eq_true, decide_eq_true_eq]
    push_cast
    omega

/-- Subtracting fails exactly when the exact difference does not fit. -/
theorem subOverflows_iff_not_fits {signed : Bool} {n : Nat} (a b : BitVec n) :
    subOverflows signed a b (a - b) = true ↔ ¬fits signed n (val signed a - val signed b) = true := by
  rw [fits_iff]
  cases signed with
  | false =>
    have ha := uval_lt a
    have hb := uval_nonneg b
    simp only [subOverflows, borrowOut, val, minVal, maxVal, Bool.false_eq_true, if_false, decide_eq_true_eq]
    omega
  | true =>
    rw [subOverflows_signed, BitVec.ssubOverflow]
    simp only [val, sval, minVal, maxVal, pow2, if_true, Bool.or_eq_true, decide_eq_true_eq]
    push_cast
    omega

/-- A checked operation and its wrapping form, the exact result being `x`: one value if `x` fits, else OverflowError. -/
def ChecksResult (ty : Ty) (q : Request) (wrapping checked : Instr) (x : Int) : Prop :=
  if fits ty.signed ty.bits x then ∃ v, Returns wrapping q v ∧ Returns checked q v else Raises checked q .overflow

theorem checksResult_of_addResponse {ty : Ty} {q : Request} {i j : Instr} (a b : BitVec ty.bits)
    (hi : meaning i q = addResponse false ty a b) (hj : meaning j q = addResponse true ty a b) :
    ChecksResult ty q i j (val ty.signed a + val ty.signed b) := by
  have htest := addOverflows_iff_not_fits (signed := ty.signed) a b
  rw [addResponse_wrapping] at hi
  rw [addResponse_checked] at hj
  unfold ChecksResult
  split_ifs with hfits
  · exact ⟨_, (responds_iff i q _).2 hi, (responds_iff j q _).2 (hj.trans (if_neg fun h => htest.1 h hfits))⟩
  · exact (responds_iff j q _).2 (hj.trans (if_pos (htest.2 hfits)))

theorem checksResult_of_subResponse {ty : Ty} {q : Request} {i j : Instr} (a b : BitVec ty.bits)
    (hi : meaning i q = subResponse false ty a b) (hj : meaning j q = subResponse true ty a b) :
    ChecksResult ty q i j (val ty.signed a - val ty.signed b) := by
  have htest := subOverflows_iff_not_fits (signed := ty.signed) a b
  rw [subResponse_wrapping] at hi
  rw [subResponse_checked] at hj
  unfold ChecksResult
  split_ifs with hfits
  · exact ⟨_, (responds_iff i q _).2 hi, (responds_iff j q _).2 (hj.trans (if_neg fun h => htest.1 h hfits))⟩
  · exact (responds_iff j q _).2 (hj.trans (if_pos (htest.2 hfits)))

theorem val_zero (signed : Bool) (n : Nat) : val signed (0 : BitVec n) = 0 := by
  cases signed
  · exact congrArg Nat.cast (BitVec.toNat_zero (w := n))
  · exact BitVec.toInt_zero

theorem val_one (signed : Bool) {n : Nat} (hn : 1 < n) : val signed (1 : BitVec n) = 1 := by
  cases signed
  · exact congrArg Nat.cast (BitVec.toNat_one (w := n) (by omega))
  · exact BitVec.toInt_one hn

/-- Settles O27: NEG, INC and DEC are additions and subtractions of patterns too, so the two tests decide all five. -/
theorem checkedFailsExactlyWhenUnrepresentable : Obligations.CheckedFailsExactlyWhenUnrepresentable := by
  unfold Obligations.CheckedFailsExactlyWhenUnrepresentable
  intro ty q row hrow
  have hone := val_one ty.signed (n := ty.bits) (by rcases ty.bits_cases with h | h <;> omega)
  have hzero := val_zero ty.signed ty.bits
  simp only [List.mem_cons, List.not_mem_nil, or_false] at hrow
  rcases hrow with rfl | rfl | rfl | rfl | rfl
  · exact checksResult_of_addResponse _ _ rfl rfl
  · exact checksResult_of_subResponse _ _ rfl rfl
  · exact hzero ▸ checksResult_of_subResponse 0 (operandA ty q) rfl rfl
  · exact hone ▸ checksResult_of_addResponse (operandA ty q) 1 (meaning_inc ty q) (meaning_incC ty q)
  · exact hone ▸ checksResult_of_subResponse (operandA ty q) 1 (meaning_dec ty q) (meaning_decC ty q)

/-! ### The laws of addition (R109) -/

/-- The operands of a request made of results on ports. -/
theorem operandA_ports_port (ty : Ty) (a : BitVec ty.bits) (y : Port) : operandA ty (ports (port a) y) = a :=
  setWidth_port ty.bits_le_port a

theorem operandB_ports_port (ty : Ty) (x : Port) (b : BitVec ty.bits) : operandB ty (ports x (port b)) = b :=
  setWidth_port ty.bits_le_port b

theorem addOverflows_comm {n : Nat} (signed : Bool) (a b : BitVec n) :
    addOverflows signed a b (a + b) = addOverflows signed b a (b + a) := by
  rw [Bool.eq_iff_iff, addOverflows_iff, addOverflows_iff, BitVec.add_comm b a]
  cases signed with
  | false => simp [carryOut_iff, Nat.add_comm]
  | true =>
    simp only [if_true]
    constructor <;> (rintro ⟨hsame, hdiff⟩; exact ⟨hsame.symm, hsame ▸ hdiff⟩)

theorem addResponse_comm (checked : Bool) (ty : Ty) (a b : BitVec ty.bits) :
    addResponse checked ty a b = addResponse checked ty b a := by
  have hcarry : carryOut a b = carryOut b a := by rw [carryOut, carryOut, add_comm]
  cases checked with
  | false => rw [addResponse_wrapping, addResponse_wrapping, BitVec.add_comm, hcarry]
  | true => rw [addResponse_checked, addResponse_checked, addOverflows_comm, BitVec.add_comm, hcarry]

theorem meaning_add (ty : Ty) (q : Request) :
    meaning (.add ty) q =
      .value { r := port (operandA ty q + operandB ty q), c := carryOut (operandA ty q) (operandB ty q) } :=
  addResponse_wrapping ty _ _

theorem meaning_sub (ty : Ty) (q : Request) :
    meaning (.sub ty) q =
      .value { r := port (operandA ty q - operandB ty q), c := borrowOut (operandA ty q) (operandB ty q) } :=
  subResponse_wrapping ty _ _

theorem meaning_neg (ty : Ty) (q : Request) :
    meaning (.neg ty) q = .value { r := port (-operandA ty q), c := borrowOut 0 (operandA ty q) } := by
  rw [← zero_sub]
  exact subResponse_wrapping ty 0 _

/-- Settles O29: each law is the law of the patterns, read through the ports. -/
theorem additionLaws : Obligations.AdditionLaws := by
  unfold Obligations.AdditionLaws
  intro ty x y z
  simp only [responds_iff]
  refine ⟨⟨_, meaning_add _ _, ?comm⟩, ⟨_, rfl, ?checkedComm⟩,
    ⟨_, _, _, _, meaning_add _ _, meaning_add _ _, meaning_add _ _, meaning_add _ _, ?assoc⟩,
    ⟨_, _, _, meaning_sub _ _, meaning_neg _ _, meaning_add _ _, ?sub⟩, ⟨_, _, meaning_neg _ _, meaning_neg _ _, ?neg⟩⟩
  case comm => exact (addResponse_comm false ty _ _).trans (meaning_add ty (ports x y))
  case checkedComm => exact addResponse_comm true ty _ _
  case assoc =>
    rw [operandA_ports_port, operandB_ports_port]
    exact congrArg port (BitVec.add_assoc _ _ _)
  case sub =>
    rw [operandB_ports_port]
    exact congrArg port (BitVec.sub_eq_add_neg _ _)
  case neg =>
    rw [operandA_ports_port]
    exact congrArg port (BitVec.neg_neg)

end Sys2Proof.Proofs

/-! PROOFS. Limbs: the number some limbs denote and the limbs of a value, and the ripple of carries and borrows over them
(20_memory.md rule R40, 41_add_sub.md rules R101, R103). -/

namespace Sys2Proof.Proofs

open Sys2Proof Sys2Proof.Machine

/-! ### Numbers and their limbs (R40) -/

theorem limbsNat_append (xs ys : List Limb) :
    limbsNat (xs ++ ys) = limbsNat xs + 2 ^ (64 * xs.length) * limbsNat ys := by
  induction xs with
  | nil => simp [limbsNat]
  | cons x xs ih =>
    rw [List.cons_append, limbsNat, limbsNat, ih, List.length_cons, Nat.mul_succ, pow_add]
    ring

theorem limbsNat_lt (ls : List Limb) : limbsNat ls < 2 ^ (64 * ls.length) := by
  induction ls with
  | nil => exact Nat.one_pos
  | cons l ls ih =>
    have hl := l.isLt
    rw [limbsNat, List.length_cons, Nat.mul_succ, pow_add]
    omega

@[simp] theorem limbsOf_length {w : Nat} (count : Nat) (v : BitVec w) : (limbsOf count v).length = count := by
  simp [limbsOf]

theorem limbsOf_succ {w : Nat} (count : Nat) (v : BitVec w) :
    limbsOf (count + 1) v = limbsOf count v ++ [limb v count] := by
  simp [limbsOf, List.range_succ]

theorem limb_toNat {w : Nat} (v : BitVec w) (i : Nat) : (limb v i).toNat = v.toNat / 2 ^ (64 * i) % 2 ^ 64 := by
  rw [limb, BitVec.extractLsb'_toNat, Nat.shiftRight_eq_div_pow]

/-- The low limbs of a value denote its low bits. -/
theorem limbsNat_limbsOf {w : Nat} (count : Nat) (v : BitVec w) :
    limbsNat (limbsOf count v) = v.toNat % 2 ^ (64 * count) := by
  induction count with
  | zero => simp [limbsOf, limbsNat, Nat.mod_one]
  | succ count ih =>
    have hlast : limbsNat [limb v count] = v.toNat / 2 ^ (64 * count) % 2 ^ 64 := by
      rw [limbsNat, limbsNat, limb_toNat, Nat.mul_zero, Nat.add_zero]
    rw [limbsOf_succ, limbsNat_append, ih, hlast, limbsOf_length, Nat.mul_succ, pow_add, Nat.mod_mul]

theorem limbsNat_limbsOf_of_lt {w count : Nat} {v : BitVec w} (h : v.toNat < 2 ^ (64 * count)) :
    limbsNat (limbsOf count v) = v.toNat := by
  rw [limbsNat_limbsOf, Nat.mod_eq_of_lt h]

/-- The L limbs of an operand denote it. -/
theorem limbsNat_limbsOf_bits (ty : Ty) (v : BitVec ty.bits) : limbsNat (limbsOf ty.width.limbs v) = v.toNat :=
  limbsNat_limbsOf_of_lt (ty.width.limbs_mul.symm ▸ v.isLt)

/-! ### Carries and borrows over limbs (R101, R103) -/

/-- One limb of the carry: the two tests `result < leftOperand` give the carry out of the exact sum. -/
theorem limb_add_carry (a b : Limb) (c : Bool) :
    (a + b + if c then 1 else 0).toNat +
        2 ^ 64 * (decide (a + b < a) || decide ((a + b + if c then 1 else 0) < a + b)).toNat =
      a.toNat + b.toNat + c.toNat := by
  have ha := a.isLt
  have hb := b.isLt
  simp only [BitVec.lt_def, BitVec.toNat_add, apply_ite BitVec.toNat, Bool.toNat, Bool.cond_eq_ite, Bool.or_eq_true,
    decide_eq_true_eq]
  cases c <;> simp <;> split_ifs <;> omega

/-- One limb of the borrow: the two tests `result > leftOperand` give the borrow out of the exact difference. -/
theorem limb_sub_borrow (a b : Limb) (c : Bool) :
    (a - b - if c then 1 else 0).toNat + b.toNat + c.toNat =
      a.toNat + 2 ^ 64 * (decide (a < a - b) || decide (a - b < a - b - if c then 1 else 0)).toNat := by
  have ha := a.isLt
  have hb := b.isLt
  simp only [BitVec.lt_def, BitVec.toNat_sub, apply_ite BitVec.toNat, Bool.toNat, Bool.cond_eq_ite, Bool.or_eq_true,
    decide_eq_true_eq]
  cases c <;> simp <;> split_ifs <;> omega

theorem rippleAdd_cons (a b : Limb) (as bs : List Limb) (c : Bool) :
    rippleAdd (a :: as) (b :: bs) c =
      (let out := decide (a + b < a) || decide ((a + b + if c then 1 else 0) < a + b)
       ((a + b + if c then 1 else 0) :: (rippleAdd as bs out).1, (rippleAdd as bs out).2)) := rfl

theorem rippleSub_cons (a b : Limb) (as bs : List Limb) (c : Bool) :
    rippleSub (a :: as) (b :: bs) c =
      (let out := decide (a < a - b) || decide (a - b < a - b - if c then 1 else 0)
       ((a - b - if c then 1 else 0) :: (rippleSub as bs out).1, (rippleSub as bs out).2)) := rfl

theorem rippleAdd_length {as bs : List Limb} (h : as.length = bs.length) (c : Bool) :
    (rippleAdd as bs c).1.length = as.length := by
  induction as generalizing bs c with
  | nil => rfl
  | cons a as ih =>
    obtain _ | ⟨b, bs⟩ := bs
    · cases h
    · rw [rippleAdd_cons, List.length_cons, ih (Nat.succ.inj h), List.length_cons]

theorem rippleSub_length {as bs : List Limb} (h : as.length = bs.length) (c : Bool) :
    (rippleSub as bs c).1.length = as.length := by
  induction as generalizing bs c with
  | nil => rfl
  | cons a as ih =>
    obtain _ | ⟨b, bs⟩ := bs
    · cases h
    · rw [rippleSub_cons, List.length_cons, ih (Nat.succ.inj h), List.length_cons]

/-- The ripple of carries: the limbs with the final carry in front are the exact sum (R101). -/
theorem rippleAdd_sum {as bs : List Limb} (h : as.length = bs.length) (c : Bool) :
    limbsNat (rippleAdd as bs c).1 + 2 ^ (64 * as.length) * (rippleAdd as bs c).2.toNat =
      limbsNat as + limbsNat bs + c.toNat := by
  induction as generalizing bs c with
  | nil =>
    obtain rfl := List.length_eq_zero_iff.1 h.symm
    simp [rippleAdd, limbsNat]
  | cons a as ih =>
    obtain _ | ⟨b, bs⟩ := bs
    · cases h
    have hlimb := limb_add_carry a b c
    have hrest := ih (Nat.succ.inj h) (decide (a + b < a) || decide ((a + b + if c then 1 else 0) < a + b))
    rw [rippleAdd_cons, limbsNat, limbsNat, limbsNat, List.length_cons, Nat.mul_succ, Nat.add_comm _ 64, pow_add,
      Nat.mul_assoc]
    linear_combination hlimb + 2 ^ 64 * hrest

/-- The ripple of borrows: the limbs with the final borrow in front are the exact difference (R103). -/
theorem rippleSub_difference {as bs : List Limb} (h : as.length = bs.length) (c : Bool) :
    limbsNat (rippleSub as bs c).1 + limbsNat bs + c.toNat =
      limbsNat as + 2 ^ (64 * as.length) * (rippleSub as bs c).2.toNat := by
  induction as generalizing bs c with
  | nil =>
    obtain rfl := List.length_eq_zero_iff.1 h.symm
    simp [rippleSub, limbsNat]
  | cons a as ih =>
    obtain _ | ⟨b, bs⟩ := bs
    · cases h
    have hlimb := limb_sub_borrow a b c
    have hrest := ih (Nat.succ.inj h) (decide (a < a - b) || decide (a - b < a - b - if c then 1 else 0))
    rw [rippleSub_cons, limbsNat, limbsNat, limbsNat, List.length_cons, Nat.mul_succ, Nat.add_comm _ 64, pow_add,
      Nat.mul_assoc]
    linear_combination hlimb + 2 ^ 64 * hrest

/-- A number below 2^n with a bit in front determines both. -/
theorem eq_and_eq_of_add_bit {n x y : Nat} {c d : Bool} (hx : x < 2 ^ n) (hy : y < 2 ^ n)
    (h : x + 2 ^ n * c.toNat = y + 2 ^ n * d.toNat) : x = y ∧ c = d := by
  cases c <;> cases d <;> simp at h ⊢ <;> omega

theorem two_pow_mul_toNat (n : Nat) (c : Bool) : 2 ^ n * c.toNat = if c then 2 ^ n else 0 := by
  cases c <;> simp

theorem limbs_lt_of_length_bits (ty : Ty) {ls : List Limb} (h : ls.length = ty.width.limbs) :
    limbsNat ls < 2 ^ ty.bits := by
  have hlt := limbsNat_lt ls
  rwa [h, ty.width.limbs_mul] at hlt

/-- The carry loop over the limbs of two operands gives their sum and its carry. -/
theorem rippleAdd_limbsOf (ty : Ty) (a b : BitVec ty.bits) :
    limbsNat (rippleAdd (limbsOf ty.width.limbs a) (limbsOf ty.width.limbs b) false).1 = (a + b).toNat ∧
      (rippleAdd (limbsOf ty.width.limbs a) (limbsOf ty.width.limbs b) false).2 = carryOut a b := by
  have hlen : (limbsOf ty.width.limbs a).length = (limbsOf ty.width.limbs b).length := by simp
  have hripple := rippleAdd_sum hlen false
  have hsum := add_toNat_add_carry a b
  have hlt := limbs_lt_of_length_bits ty ((rippleAdd_length hlen false).trans (limbsOf_length _ a))
  rw [limbsNat_limbsOf_bits, limbsNat_limbsOf_bits, limbsOf_length, ty.width.limbs_mul] at hripple
  refine eq_and_eq_of_add_bit hlt (a + b).isLt (hripple.trans ?_)
  rw [← hsum, Bool.toNat_false, Nat.add_zero, two_pow_mul_toNat]

/-- The borrow loop over the limbs of two operands gives their difference and its borrow. -/
theorem rippleSub_limbsOf (ty : Ty) (a b : BitVec ty.bits) :
    limbsNat (rippleSub (limbsOf ty.width.limbs a) (limbsOf ty.width.limbs b) false).1 = (a - b).toNat ∧
      (rippleSub (limbsOf ty.width.limbs a) (limbsOf ty.width.limbs b) false).2 = borrowOut a b := by
  have hlen : (limbsOf ty.width.limbs a).length = (limbsOf ty.width.limbs b).length := by simp
  have hripple := rippleSub_difference hlen false
  have hdiff := sub_toNat_add_borrow a b
  have hlt := limbs_lt_of_length_bits ty ((rippleSub_length hlen false).trans (limbsOf_length _ a))
  rw [limbsNat_limbsOf_bits, limbsNat_limbsOf_bits, limbsOf_length, ty.width.limbs_mul, Bool.toNat_false,
    Nat.add_zero] at hripple
  rw [← two_pow_mul_toNat] at hdiff
  obtain ⟨hlimbs, hborrow⟩ := eq_and_eq_of_add_bit (c := borrowOut a b)
    (d := (rippleSub (limbsOf ty.width.limbs a) (limbsOf ty.width.limbs b) false).2) hlt (a - b).isLt (by linarith)
  exact ⟨hlimbs, hborrow.symm⟩

/-- Settles O28: the loops give the sum and the difference with carry and borrow, which are ADD's and SUB's. -/
theorem carryAndBorrowRippleOverLimbs : Obligations.CarryAndBorrowRippleOverLimbs := by
  unfold Obligations.CarryAndBorrowRippleOverLimbs
  intro ty q
  obtain ⟨hsum, hcarry⟩ := rippleAdd_limbsOf ty (operandA ty q) (operandB ty q)
  obtain ⟨hdiff, hborrow⟩ := rippleSub_limbsOf ty (operandA ty q) (operandB ty q)
  have hfit := ty.bits_le_port
  exact ⟨⟨_, (responds_iff _ q _).2 (meaning_add ty q), hsum.trans (port_toNat hfit _).symm, hcarry⟩,
    ⟨_, (responds_iff _ q _).2 (meaning_sub ty q), hdiff.trans (port_toNat hfit _).symm, hborrow⟩⟩

end Sys2Proof.Proofs

/-! PROOFS. The paths of the multiplier: schoolbook multiplication over limbs, the one-limb paths and the two signed forms give
the product, and the test on the two halves of the double-width product decides the checked multiply (42_multiply.md rules R122,
R124 to R126). -/

namespace Sys2Proof.Proofs

open Sys2Proof Sys2Proof.Machine

/-! ### Schoolbook multiplication (R126) -/

theorem mulRow_cons (x y z : Limb) (ys zs : List Limb) (k : Nat) :
    mulRow x (y :: ys) (z :: zs) k =
      BitVec.ofNat 64 ((x.toNat * y.toNat + z.toNat + k) % 2 ^ 64) ::
        mulRow x ys zs ((x.toNat * y.toNat + z.toNat + k) / 2 ^ 64) := rfl

/-- The carry of one limb product is one limb. -/
theorem limb_product_carry_lt (x y z : Limb) {k : Nat} (hk : k < 2 ^ 64) :
    (x.toNat * y.toNat + z.toNat + k) / 2 ^ 64 < 2 ^ 64 := by
  have hxy : x.toNat * y.toNat ≤ (2 ^ 64 - 1) * (2 ^ 64 - 1) :=
    Nat.mul_le_mul (Nat.le_sub_one_of_lt x.isLt) (Nat.le_sub_one_of_lt y.isLt)
  have hz := z.isLt
  omega

/-- One row: the limb's product with the row of limbs, added to the window and the carry. -/
theorem limbsNat_mulRow (x : Limb) {ys zs : List Limb} (h : ys.length = zs.length) {k : Nat} (hk : k < 2 ^ 64) :
    limbsNat (mulRow x ys zs k) = x.toNat * limbsNat ys + limbsNat zs + k := by
  induction ys generalizing zs k with
  | nil =>
    obtain rfl := List.length_eq_zero_iff.1 h.symm
    simpa [mulRow, limbsNat] using hk
  | cons y ys ih =>
    obtain _ | ⟨z, zs⟩ := zs
    · cases h
    have hrest := ih (Nat.succ.inj h) (limb_product_carry_lt x y z hk)
    have hsplit := Nat.mod_add_div (x.toNat * y.toNat + z.toNat + k) (2 ^ 64)
    rw [mulRow_cons, limbsNat, limbsNat, limbsNat, hrest, BitVec.toNat_ofNat, Nat.mod_mod]
    linear_combination hsplit

theorem mulRow_length (x : Limb) {ys zs : List Limb} (h : ys.length = zs.length) (k : Nat) :
    (mulRow x ys zs k).length = ys.length + 1 := by
  induction ys generalizing zs k with
  | nil => rfl
  | cons y ys ih =>
    obtain _ | ⟨z, zs⟩ := zs
    · cases h
    · rw [mulRow_cons, List.length_cons, ih (Nat.succ.inj h), List.length_cons]

/-- The rows: each gives its lowest limb to the result and the others to the next window. -/
theorem limbsNat_schoolbookFrom {xs ys window : List Limb} (h : ys.length = window.length) :
    limbsNat (schoolbookFrom xs ys window) = limbsNat xs * limbsNat ys + limbsNat window := by
  induction xs generalizing window with
  | nil => simp [schoolbookFrom, limbsNat]
  | cons x xs ih =>
    have hrow := limbsNat_mulRow x h (Nat.two_pow_pos 64)
    have hlen := mulRow_length x h 0
    unfold schoolbookFrom
    split
    next hnil =>
      rw [hnil] at hlen
      cases hlen
    next z rest hcons =>
      rw [hcons] at hrow hlen
      rw [limbsNat] at hrow
      rw [limbsNat, ih (Nat.succ.inj hlen).symm, limbsNat]
      linear_combination hrow

theorem limbsNat_map_zero (ys : List Limb) : limbsNat (ys.map fun _ => 0) = 0 := by
  induction ys with
  | nil => rfl
  | cons y ys ih =>
    rw [List.map_cons, limbsNat, ih]
    rfl

theorem limbsNat_schoolbook (xs ys : List Limb) : limbsNat (schoolbook xs ys) = limbsNat xs * limbsNat ys := by
  rw [schoolbook, limbsNat_schoolbookFrom (List.length_map _).symm, limbsNat_map_zero, Nat.add_zero]

theorem limbsNat_singleLimbMultiply (x : Limb) (ys : List Limb) :
    limbsNat (singleLimbMultiply x ys) = x.toNat * limbsNat ys := by
  rw [singleLimbMultiply, limbsNat_mulRow x (List.length_map _).symm (Nat.two_pow_pos 64), limbsNat_map_zero,
    Nat.add_zero]

theorem limb_zero_toNat {w : Nat} {v : BitVec w} (h : v.toNat < 2 ^ 64) : (limb v 0).toNat = v.toNat := by
  rw [limb_toNat, Nat.mul_zero, pow_zero, Nat.div_one, Nat.mod_eq_of_lt h]

/-- Every path of the multiplier gives the product (R124 to R126). -/
theorem multiplyByPaths_eq {w count : Nat} {a b : BitVec w} (ha : limbsNat (limbsOf count a) = a.toNat)
    (hb : limbsNat (limbsOf count b) = b.toNat) : multiplyByPaths count a b = a.toNat * b.toNat := by
  unfold multiplyByPaths
  split_ifs with hboth hfirst hsecond
  · rw [limb_zero_toNat hboth.1, limb_zero_toNat hboth.2]
  · rw [limbsNat_singleLimbMultiply, limb_zero_toNat hfirst, hb]
  · rw [limbsNat_singleLimbMultiply, limb_zero_toNat hsecond, ha, Nat.mul_comm]
  · rw [limbsNat_schoolbook, ha, hb]

/-! ### The signed product from the unsigned one (R126) -/

/-- The value read as signed from the value read as unsigned. -/
theorem sval_eq {n : Nat} (v : BitVec n) : sval v = uval v - if sign v then pow2 n else 0 := by
  rw [sval, BitVec.toInt_eq_msb_cond, sign, uval, pow2]
  split_ifs <;> simp

/-- Integers that differ by a multiple of 2^n have one pattern. -/
theorem bv_add_mul_pow2 (n : Nat) (x k : Int) : bv n (x + pow2 n * k) = bv n x := by
  apply BitVec.eq_of_toNat_eq
  rw [bv_toNat, bv_toNat, Int.add_mul_emod_self_left]

theorem pow2_two_mul (n : Nat) : pow2 (2 * n) = pow2 n * pow2 n := by
  rw [pow2, pow2, two_mul, pow_add, Nat.cast_mul]

/-- The two subtractions: the product of the signed values differs from them by a multiple of 2^(2W). -/
theorem signedFromUnsigned_eq {w : Nat} (a b : BitVec w) :
    signedFromUnsigned a b (uval a * uval b) = bv (2 * w) (sval a * sval b) := by
  have hproduct : sval a * sval b =
      (uval a * uval b - (if sign a then uval b * pow2 w else 0) - (if sign b then uval a * pow2 w else 0)) +
        pow2 (2 * w) * (if sign a && sign b then 1 else 0) := by
    rw [sval_eq, sval_eq, pow2_two_mul]
    cases sign a <;> cases sign b <;> simp <;> ring
  rw [hproduct, bv_add_mul_pow2, signedFromUnsigned]

theorem negate_eq {w : Nat} (v : BitVec w) : negate v = -v := by
  have hzero : bv w (0 - uval v) = bv w (uval (0 : BitVec w) - uval v) := by
    rw [uval, uval, BitVec.ofNat_eq_ofNat, BitVec.toNat_zero, Nat.cast_zero]
  rw [negate, hzero, bv_uval_sub]
  exact BitVec.zero_sub v

/-- The magnitude read as unsigned is the absolute value of the signed reading (R145). -/
theorem magnitude_toNat {w : Nat} (v : BitVec w) : (magnitude v).toNat = (sval v).natAbs := by
  have hlt := v.isLt
  have habs : magnitude v = v.abs := by rw [magnitude, negate_eq, BitVec.abs_eq, sign]
  rw [habs, BitVec.toNat_abs, sval, BitVec.toInt_eq_msb_cond]
  split_ifs <;> omega

/-- A signed value is its absolute value with its sign. -/
theorem sval_eq_natAbs {w : Nat} (v : BitVec w) :
    sval v = if sign v then -((sval v).natAbs : Int) else ((sval v).natAbs : Int) := by
  have hsign := sign_iff_neg v
  split_ifs with h <;> grind

/-- The product of the magnitudes with the sign of the factors is the product of the signed values. -/
theorem signedFromMagnitudes_eq {w : Nat} (a b : BitVec w) :
    signedFromMagnitudes a b ((magnitude a).toNat * (magnitude b).toNat) = bv (2 * w) (sval a * sval b) := by
  rw [signedFromMagnitudes, magnitude_toNat, magnitude_toNat, sval_eq_natAbs a, sval_eq_natAbs b]
  cases sign a <;> cases sign b <;> simp

theorem wideProduct_signed {ty : Ty} (hs : ty.signed = true) (q : Request) :
    wideProduct ty q = bv (2 * ty.bits) (sval (operandA ty q) * sval (operandB ty q)) := by
  rw [wideProduct, exactProduct, hs]
  rfl

/-- Settles O33: the limbs of the operands denote them, every path multiplies what its limbs denote, and both signed forms give
the pattern of the product of the signed values. -/
theorem everyMultiplyPathGivesTheProduct : Obligations.EveryMultiplyPathGivesTheProduct := by
  unfold Obligations.EveryMultiplyPathGivesTheProduct
  intro ty q
  have ha := limbsNat_limbsOf_bits ty (operandA ty q)
  have hb := limbsNat_limbsOf_bits ty (operandB ty q)
  refine ⟨?schoolbook, multiplyByPaths_eq ha hb, fun hs => ?signed⟩
  case schoolbook => rw [limbsNat_schoolbook, ha, hb]
  case signed => exact ⟨(signedFromUnsigned_eq _ _).trans (wideProduct_signed hs q).symm,
    (signedFromMagnitudes_eq _ _).trans (wideProduct_signed hs q).symm⟩

/-! ### The test on the two halves (R122) -/

/-- Two digits in base 2P, the lower one nonnegative, lie in [-P, P) exactly when the upper one is the sign of the lower. -/
theorem two_digits_in_range_iff {P H L : Int} (hL : 0 ≤ L) (hLP : L < 2 * P) :
    (-P ≤ 2 * P * H + L ∧ 2 * P * H + L ≤ P - 1) ↔ if P ≤ L then H = -1 else H = 0 := by
  constructor
  · rintro ⟨hlow, hhigh⟩
    have hup : H < 1 := by nlinarith
    have hdown : -2 < H := by nlinarith
    have hH : H = -1 ∨ H = 0 := by omega
    rcases hH with rfl | rfl <;> split_ifs <;> omega
  · split_ifs with hsign <;> rintro rfl <;> omega

/-- Unsigned, two halves fit one exactly when the upper one is zero. -/
theorem fits_append_unsigned {w : Nat} (hi lo : BitVec w) :
    fits false w (val false (hi ++ lo)) = true ↔ hi = 0 := by
  have hlo := lo.isLt
  have hpos := Nat.two_pow_pos w
  have hle : fits false w (val false (hi ++ lo)) = true ↔ hi.toNat * 2 ^ w + lo.toNat < 2 ^ w := by
    rw [fits_iff, ← append_toNat]
    simp only [val, uval, minVal, maxVal, pow2, Bool.false_eq_true, if_false]
    omega
  rw [hle, ← BitVec.toNat_inj, BitVec.ofNat_eq_ofNat, BitVec.toNat_zero]
  constructor
  · intro h
    by_contra hne
    have hmul := Nat.le_mul_of_pos_left (2 ^ w) (Nat.pos_of_ne_zero hne)
    omega
  · intro h
    rw [h]
    omega

/-- Signed, two halves fit one exactly when the upper one is the sign extension of the lower (D15: the sign of the result adds
no condition). -/
theorem fits_append_signed {w : Nat} (hw : 0 < w) (hi lo : BitVec w) :
    fits true w (val true (hi ++ lo)) = true ↔ if sign lo then hi = bv w (-1) else hi = 0 := by
  have hlo := lo.isLt
  have htop : (2 : Int) ^ w = 2 * 2 ^ (w - 1) := by rw [← pow_succ', Nat.sub_add_cancel hw]
  have hval : val true (hi ++ lo) = 2 * 2 ^ (w - 1) * hi.toInt + lo.toNat := by
    rw [val, if_pos rfl, sval, BitVec.toInt_append, if_neg (by simpa using hw.ne'), htop]
  have hneg : hi = bv w (-1) ↔ hi.toInt = -1 := by
    rw [bv_neg_one hw, ← BitVec.toInt_inj, BitVec.toInt_allOnes, if_pos hw]
  have hzero : hi = 0 ↔ hi.toInt = 0 := by
    rw [← BitVec.toInt_inj, BitVec.ofNat_eq_ofNat, BitVec.toInt_zero]
  have hsign : sign lo = true ↔ (2 : Int) ^ (w - 1) ≤ lo.toNat := by
    rw [sign, BitVec.msb_eq_decide, decide_eq_true_eq]
    norm_cast
  have hrange := two_digits_in_range_iff (P := 2 ^ (w - 1)) (H := hi.toInt) (Int.natCast_nonneg lo.toNat)
    (by rw [← htop]; exact_mod_cast hlo)
  rw [fits_iff, hval, hneg, hzero]
  simpa only [minVal, maxVal, pow2, if_true, Nat.cast_pow, Nat.cast_ofNat, hsign] using hrange

/-- R122's test on the halves says that the exact product fits. -/
theorem productFits_wideProduct (ty : Ty) (q : Request) :
    productFits ty.signed (wideProduct ty q) = fits ty.signed ty.bits (exactProduct ty q) := by
  rw [← val_wideProduct_halves, Bool.eq_iff_iff, productFits]
  cases ty.signed with
  | false =>
    rw [fits_append_unsigned]
    simp
  | true =>
    rw [fits_append_signed ty.bits_pos]
    simp only [if_true]
    split_ifs <;> simp

/-- Settles O31: the test on the halves is the test that MUL.C's meaning branches on. -/
theorem checkedMulTestsTheHighHalf : Obligations.CheckedMulTestsTheHighHalf := by
  unfold Obligations.CheckedMulTestsTheHighHalf
  intro ty q
  rw [productFits_wideProduct]
  split_ifs with hfits
  · exact ⟨_, (responds_iff _ q _).2 rfl, (responds_iff _ q _).2 (if_pos hfits)⟩
  · exact (responds_iff _ q _).2 (if_neg hfits)

end Sys2Proof.Proofs

/-! PROOFS. The rest of the divide engine: MIN by minus one, the division identity, signed division from the magnitudes, and the
paths of the divider (43_divide.md rules R141, R143, R145 to R149, R151, R152). -/

namespace Sys2Proof.Proofs

open Sys2Proof Sys2Proof.Machine

/-! ### MIN by minus one (R141, R143) -/

theorem divError_minByNegOne {ty : Ty} {a b : BitVec ty.bits} (h : minByNegOne ty.signed a b = true) (op : DivOp) :
    divError op ty a b = minByNegOneError op := by
  obtain ⟨-, -, hb⟩ := (minByNegOne_iff ty.bits_pos _ _ _).1 h
  have hpos : BitVec.allOnes ty.bits ≠ 0 := by
    have hn := ty.bits_pos
    rw [ne_eq, ← BitVec.toInt_inj, BitVec.toInt_allOnes, if_pos hn]
    simp
  rw [divError, if_neg (hb ▸ hpos), if_pos h]

/-- The remainder of MIN by minus one is zero (R143). -/
theorem truncRem_neg_one (x : Int) : truncRem x (-1) = 0 := by
  rw [truncRem_eq_tmod, Int.tmod_neg, Int.tmod_one]

/-- REM of MIN by minus one with the parameter at `zero` is the value with every field zero. -/
theorem remResponse_minByNegOne_zero {ty : Ty} {q : Request}
    (h : minByNegOne ty.signed (operandA ty q) (operandB ty q) = true) (hrem : Config.remMinNeg1 = .zero) :
    remResponse ty q = .value {} := by
  obtain ⟨hs, -, hb⟩ := (minByNegOne_iff ty.bits_pos _ _ _).1 h
  have hnone : divError .rem ty (operandA ty q) (operandB ty q) = none := by
    rw [divError_minByNegOne h]
    simp only [minByNegOneError, hrem]
  have hval : val ty.signed (operandB ty q) = -1 := by
    rw [hb, hs, val, if_pos rfl, sval, BitVec.toInt_allOnes, if_pos ty.bits_pos]
  have hpair : divPair .rem ty (operandA ty q) (operandB ty q) =
      .ok (truncDiv (val ty.signed (operandA ty q)) (-1), 0) := by
    rw [divPair, hnone]
    simp only [hval, truncRem_neg_one]
  have hport : port (bv ty.bits 0) = 0 := by
    apply BitVec.eq_of_toNat_eq
    rw [port_toNat ty.bits_le_port, bv_toNat, Int.zero_emod, Int.toNat_zero]
    exact BitVec.toNat_zero.symm
  rw [remResponse_of_divPair hpair, okR, hport]

/-- Settles O35: divpair's second check fails for DIV and DIVREM, and for REM it does what the parameter says. -/
theorem minByMinusOne : Obligations.MinByMinusOne := by
  unfold Obligations.MinByMinusOne
  intro ty q hs ha hb
  have hmin : minByNegOne ty.signed (operandA ty q) (operandB ty q) = true :=
    (minByNegOne_iff ty.bits_pos _ _ _).2 ⟨hs, ha.trans (minPattern_eq_intMin ty), hb⟩
  have herror := divError_minByNegOne hmin
  simp only [responds_iff]
  refine ⟨fun i hi => ?overflow, fun i hi => ⟨fun hrem => ?remOverflow, fun hrem => ?remZero⟩⟩
  case overflow =>
    have hdiv := (divResponse_eq_error_iff ty q .overflow).2 (herror .div)
    have hdivrem := (divremResponse_eq_error_iff ty q .overflow).2 (herror .divrem)
    simp only [List.mem_cons, List.not_mem_nil, or_false] at hi
    rcases hi with rfl | rfl | rfl | rfl
    · exact hdiv
    · exact hdiv
    · exact hdivrem
    · exact hdivrem
  case remOverflow =>
    have hrem := (remResponse_eq_error_iff ty q .overflow).2
      ((herror .rem).trans (by simp only [minByNegOneError, hrem]))
    rcases List.mem_pair.1 hi with rfl | rfl
    · exact hrem
    · exact hrem
  case remZero =>
    have hzero := remResponse_minByNegOne_zero hmin hrem
    rcases List.mem_pair.1 hi with rfl | rfl
    · exact hzero
    · exact hzero

/-! ### What a value response of DIVREM says -/

/-- DIVREM gives a value only when both checks of divpair pass, and then the pair (R139, R140). -/
theorem divremResponse_value {ty : Ty} {q : Request} {v : Value} (h : divremResponse ty q = .value v) :
    operandB ty q ≠ 0 ∧ v =
      { r := port (bv ty.bits (truncDiv (val ty.signed (operandA ty q)) (val ty.signed (operandB ty q)))),
        rh := port (bv ty.bits (truncRem (val ty.signed (operandA ty q)) (val ty.signed (operandB ty q)))) } := by
  have hnot (k : ErrorKind) : divError .divrem ty (operandA ty q) (operandB ty q) ≠ some k := fun hk => by
    rw [(divremResponse_eq_error_iff ty q k).2 hk] at h
    cases h
  have hb : operandB ty q ≠ 0 := fun hzero => hnot .divideByZero (if_pos hzero)
  have hmin : ¬minByNegOne ty.signed (operandA ty q) (operandB ty q) = true := fun hmin =>
    hnot .overflow (divError_minByNegOne hmin .divrem)
  rw [divremResponse_of_divPair (divPair_eq_ok .divrem hb hmin)] at h
  exact ⟨hb, (Response.value.inj h).symm⟩

/-! ### The division identity (R152) -/

/-- The pattern of the quotient times the divisor plus the pattern of the remainder is the dividend. -/
theorem bv_truncDiv_mul_add (signed : Bool) {n : Nat} (a b : BitVec n) :
    bv n (truncDiv (val signed a) (val signed b)) * b + bv n (truncRem (val signed a) (val signed b)) = a := by
  calc bv n (truncDiv (val signed a) (val signed b)) * b + bv n (truncRem (val signed a) (val signed b))
      = bv n (truncDiv (val signed a) (val signed b)) * bv n (val signed b) +
          bv n (truncRem (val signed a) (val signed b)) := by rw [bv_val]
    _ = bv n (truncDiv (val signed a) (val signed b) * val signed b + truncRem (val signed a) (val signed b)) := by
        rw [bv, bv, bv, bv, BitVec.ofInt_add, BitVec.ofInt_mul]
    _ = a := by rw [← truncDiv_mul_add_truncRem, bv_val]

theorem meaning_mul (ty : Ty) (q : Request) :
    meaning (.mul ty) q = .value { r := port (operandA ty q * operandB ty q) } :=
  congrArg okR (bv_exactProduct ty q)

/-- Settles O37: on patterns, so the wrapping operations recover the dividend. -/
theorem divisionIdentityHolds : Obligations.DivisionIdentityHolds := by
  unfold Obligations.DivisionIdentityHolds
  intro ty x y v h
  obtain ⟨-, rfl⟩ := divremResponse_value ((responds_iff _ _ _).1 h)
  simp only [responds_iff]
  refine ⟨_, _, meaning_mul ty _, meaning_add ty _, ?_⟩
  rw [operandA_ports_port, operandB_ports_port, operandA_ports_port]
  exact congrArg port (bv_truncDiv_mul_add ty.signed (operandA ty (ports x y)) (operandB ty (ports x y)))

/-! ### Signed division from the magnitudes (R145) -/

theorem bv_neg_natCast (n k : Nat) : bv n (-(k : Int)) = -BitVec.ofNat n k := by
  rw [bv, BitVec.ofInt_neg, BitVec.ofInt_natCast]

/-- The truncated quotient: that of the magnitudes, negated when the signs differ. -/
theorem bv_truncDiv_sval {w : Nat} (a b : BitVec w) :
    bv w (truncDiv (sval a) (sval b)) =
      if sign a != sign b then negate (BitVec.ofNat w ((sval a).natAbs / (sval b).natAbs))
      else BitVec.ofNat w ((sval a).natAbs / (sval b).natAbs) := by
  rw [negate_eq, ← bv_neg_natCast, ← bv_natCast, truncDiv]
  conv_lhs => rw [sval_eq_natAbs a, sval_eq_natAbs b]
  generalize (sval a).natAbs = m
  generalize (sval b).natAbs = k
  cases sign a <;> cases sign b <;> simp

/-- The truncated remainder: that of the magnitudes, negated when the dividend is negative. -/
theorem bv_truncRem_sval {w : Nat} (a b : BitVec w) :
    bv w (truncRem (sval a) (sval b)) =
      if sign a then negate (BitVec.ofNat w ((sval a).natAbs % (sval b).natAbs))
      else BitVec.ofNat w ((sval a).natAbs % (sval b).natAbs) := by
  rw [negate_eq, ← bv_neg_natCast, ← bv_natCast, truncRem_eq_tmod]
  conv_lhs => rw [sval_eq_natAbs a, sval_eq_natAbs b]
  generalize (sval a).natAbs = m
  generalize (sval b).natAbs = k
  cases sign a <;> cases sign b <;> simp [Int.tmod_eq_emod_of_nonneg]

/-- Settles O38: the magnitudes are the absolute values, and the truncated quotient and remainder are theirs with signs. -/
theorem magnitudeDivisionGivesSigned : Obligations.MagnitudeDivisionGivesSigned := by
  unfold Obligations.MagnitudeDivisionGivesSigned
  intro ty q v hs h
  obtain ⟨-, rfl⟩ := divremResponse_value ((responds_iff _ _ _).1 h)
  have hval (x : BitVec ty.bits) : val ty.signed x = sval x := by rw [hs, val, if_pos rfl]
  simp only [setWidth_port ty.bits_le_port, hval]
  rw [restoreSigns, magnitude_toNat, magnitude_toNat, bv_truncDiv_sval, bv_truncRem_sval]

/-! ### Short division and restoring division (R146, R151) -/

theorem shortDivide_cons (d rem : Nat) (n : Limb) (ns : List Limb) :
    shortDivide d rem (n :: ns) =
      (BitVec.ofNat 64 ((rem * 2 ^ 64 + n.toNat) / d) :: (shortDivide d ((rem * 2 ^ 64 + n.toNat) % d) ns).1,
        (shortDivide d ((rem * 2 ^ 64 + n.toNat) % d) ns).2) := rfl

theorem shortDivide_length (d rem : Nat) (ns : List Limb) : (shortDivide d rem ns).1.length = ns.length := by
  induction ns generalizing rem with
  | nil => rfl
  | cons n ns ih => rw [shortDivide_cons, List.length_cons, ih, List.length_cons]

theorem limbsNat_reverse_cons (l : Limb) (ls : List Limb) :
    limbsNat (l :: ls).reverse = limbsNat ls.reverse + 2 ^ (64 * ls.length) * l.toNat := by
  rw [List.reverse_cons, limbsNat_append, List.length_reverse, limbsNat, limbsNat, Nat.mul_zero, Nat.add_zero]

/-- A remainder followed by one limb has a quotient of one limb. -/
theorem short_quotient_lt {d rem : Nat} (hrem : rem < d) (n : Limb) : (rem * 2 ^ 64 + n.toNat) / d < 2 ^ 64 := by
  have hn := n.isLt
  rw [Nat.div_lt_iff_lt_mul (by omega)]
  nlinarith

/-- Short division from a remainder so far: quotient times divisor plus remainder, and the remainder is smaller. -/
theorem shortDivide_spec {d rem : Nat} (hrem : rem < d) (ns : List Limb) :
    limbsNat (shortDivide d rem ns).1.reverse * d + (shortDivide d rem ns).2 =
        rem * 2 ^ (64 * ns.length) + limbsNat ns.reverse ∧
      (shortDivide d rem ns).2 < d := by
  induction ns generalizing rem with
  | nil => simpa [shortDivide, limbsNat] using hrem
  | cons n ns ih =>
    have hd : 0 < d := by omega
    obtain ⟨hsum, hlast⟩ := ih (Nat.mod_lt (rem * 2 ^ 64 + n.toNat) hd)
    have hsplit := Nat.mod_add_div (rem * 2 ^ 64 + n.toNat) d
    refine ⟨?_, hlast⟩
    rw [shortDivide_cons, limbsNat_reverse_cons, limbsNat_reverse_cons, shortDivide_length, BitVec.toNat_ofNat,
      Nat.mod_eq_of_lt (short_quotient_lt hrem n), List.length_cons, Nat.mul_succ, pow_add]
    linear_combination hsum + 2 ^ (64 * ns.length) * hsplit

theorem shortDivide_eq {d : Nat} (hd : 0 < d) (ns : List Limb) :
    limbsNat (shortDivide d 0 ns).1.reverse = limbsNat ns.reverse / d ∧
      (shortDivide d 0 ns).2 = limbsNat ns.reverse % d := by
  obtain ⟨hsum, hlt⟩ := shortDivide_spec hd ns
  have hunique := (Nat.div_mod_unique hd).2 ⟨show (shortDivide d 0 ns).2 +
    d * limbsNat (shortDivide d 0 ns).1.reverse = limbsNat ns.reverse by linarith, hlt⟩
  exact ⟨hunique.1.symm, hunique.2.symm⟩

/-- The low bits of a value with one bit more. -/
theorem mod_two_pow_succ {w : Nat} (v : BitVec w) (i : Nat) :
    v.toNat % 2 ^ (i + 1) = v.toNat % 2 ^ i + 2 ^ i * (v.getLsbD i).toNat := by
  rw [Nat.mod_pow_succ, BitVec.getLsbD, Nat.toNat_testBit]

/-- Restoring division of the low i bits, from a quotient and a remainder so far. -/
theorem restoringFrom_eq {w : Nat} (ma : BitVec w) {d : Nat} (i q : Nat) {r : Nat} (hr : r < d) :
    restoringFrom ma d i q r =
      (q + (r * 2 ^ i + ma.toNat % 2 ^ i) / d, (r * 2 ^ i + ma.toNat % 2 ^ i) % d) := by
  induction i generalizing q r with
  | zero => simp [restoringFrom, Nat.mod_one, Nat.div_eq_of_lt hr, Nat.mod_eq_of_lt hr]
  | succ i ih =>
    have hbit : (ma.getLsbD i).toNat ≤ 1 := Bool.toNat_le _
    have hnext : r * 2 ^ (i + 1) + ma.toNat % 2 ^ (i + 1) =
        (2 * r + (ma.getLsbD i).toNat) * 2 ^ i + ma.toNat % 2 ^ i := by
      rw [mod_two_pow_succ, pow_succ]
      ring
    have hlt : 2 * r + (ma.getLsbD i).toNat < 2 * d := by omega
    rw [restoringFrom, hnext]
    generalize 2 * r + (ma.getLsbD i).toNat = r' at *
    split_ifs with hle
    · obtain ⟨s, rfl⟩ := Nat.exists_eq_add_of_le hle
      have hsum : (d + s) * 2 ^ i + ma.toNat % 2 ^ i = s * 2 ^ i + ma.toNat % 2 ^ i + d * 2 ^ i := by ring
      rw [Nat.add_sub_cancel_left, ih _ (by omega), hsum, Nat.add_mul_div_left _ _ (by omega),
        Nat.add_mul_mod_self_left, Nat.add_right_comm, Nat.add_assoc]
    · exact ih q (by omega)

theorem restoringDivide_eq {w : Nat} (ma : BitVec w) {d : Nat} (hd : 0 < d) :
    restoringDivide ma d = (ma.toNat / d, ma.toNat % d) := by
  rw [restoringDivide, restoringFrom_eq ma w 0 hd, Nat.zero_mul, Nat.zero_add, Nat.zero_add,
    Nat.mod_eq_of_lt ma.isLt]

/-- Settles O39: each by its invariant from the remainder so far, started at zero. -/
theorem shortAndRestoringDivisionDivide : Obligations.ShortAndRestoringDivisionDivide := by
  unfold Obligations.ShortAndRestoringDivisionDivide
  exact ⟨fun d ns hd _ => shortDivide_eq hd ns, fun w ma d hd => restoringDivide_eq ma hd⟩

/-! ### The paths of the divider (R147 to R149) -/

/-- The zero bits above the most significant one bit bound the value of the bits below. -/
theorem mod_lt_of_zerosBelow {w : Nat} (a : BitVec w) (k : Nat) : a.toNat % 2 ^ k < 2 ^ (k - zerosBelow a k) := by
  induction k with
  | zero => simp [Nat.mod_one]
  | succ k ih =>
    rw [zerosBelow]
    split_ifs with hbit
    · exact Nat.mod_lt _ (Nat.two_pow_pos _)
    · rwa [mod_two_pow_succ, Bool.eq_false_of_not_eq_true hbit, Bool.toNat_false, Nat.mul_zero, Nat.add_zero,
        Nat.add_sub_add_right]

theorem toNat_lt_of_leadingZeros {w : Nat} (v : BitVec w) : v.toNat < 2 ^ (w - leadingZeros v) := by
  have hlt := mod_lt_of_zerosBelow v w
  rwa [Nat.mod_eq_of_lt v.isLt] at hlt

/-- Trimming to the significant limbs loses nothing (R149). -/
theorem limbsNat_significantLimbs {w count : Nat} (hw : 64 * count = w) (v : BitVec w) :
    limbsNat (limbsOf (significantLimbs count v) v) = v.toNat := by
  refine limbsNat_limbsOf_of_lt ((toNat_lt_of_leadingZeros v).trans_le (Nat.pow_le_pow_right two_pos ?_))
  rw [significantLimbs]
  omega

theorem calculatorDivide_eq (ns : List Limb) {ds : List Limb} (hds : 0 < limbsNat ds) :
    calculatorDivide ns ds = (limbsNat ns / limbsNat ds, limbsNat ns % limbsNat ds) := by
  rw [calculatorDivide, restoringDivide_eq _ hds, BitVec.toNat_ofNat, Nat.mod_eq_of_lt (limbsNat_lt ns)]

theorem slowDivide_eq {w count : Nat} (hw : 64 * count = w) (ma : BitVec w) {mb : BitVec w} (hmb : 0 < mb.toNat) :
    slowDivide count ma mb = (ma.toNat / mb.toNat, ma.toNat % mb.toNat) := by
  have hb := limbsNat_significantLimbs hw mb
  rw [slowDivide, calculatorDivide_eq _ (hb ▸ hmb), hb, limbsNat_significantLimbs hw ma]

theorem dominanceOrSlow_eq {w count : Nat} (hw : 64 * count = w) (ma : BitVec w) {mb : BitVec w} (hmb : 0 < mb.toNat) :
    dominanceOrSlow count ma mb = (ma.toNat / mb.toNat, ma.toNat % mb.toNat) := by
  unfold dominanceOrSlow
  split_ifs with hless hequal
  · rw [Nat.div_eq_of_lt hless, Nat.mod_eq_of_lt hless]
  · rw [hequal, Nat.div_self hmb, Nat.mod_self]
  · exact slowDivide_eq hw ma hmb

/-- The short path: the limbs of the dividend divided one by one (R146). -/
theorem shortDivide_limbsOf {w count : Nat} (hw : 64 * count = w) (ma : BitVec w) {d : Nat} (hd : 0 < d) :
    (limbsNat (shortDivide d 0 (limbsOf count ma).reverse).1.reverse,
      (shortDivide d 0 (limbsOf count ma).reverse).2) = (ma.toNat / d, ma.toNat % d) := by
  obtain ⟨hquotient, hremainder⟩ := shortDivide_eq hd (limbsOf count ma).reverse
  rw [hquotient, hremainder, List.reverse_reverse, limbsNat_limbsOf_of_lt (hw ▸ ma.isLt)]

/-- The divider at its narrowest width, 128 bits: the short path or the dominance shortcut (N8). -/
theorem divideByPaths_zero (ma mb : BitVec (128 * 2 ^ 0)) :
    divideByPaths 0 ma mb =
      if mb.toNat < 2 ^ 64 then
        (limbsNat (shortDivide mb.toNat 0 (limbsOf (2 * 2 ^ 0) ma).reverse).1.reverse,
          (shortDivide mb.toNat 0 (limbsOf (2 * 2 ^ 0) ma).reverse).2)
      else dominanceOrSlow 2 ma mb := by
  rw [divideByPaths]

/-- The divider at twice a width: the short path, the half-width recursion, or the dominance shortcut. -/
theorem divideByPaths_succ (h : Nat) (ma mb : BitVec (128 * 2 ^ (h + 1))) :
    divideByPaths (h + 1) ma mb =
      if mb.toNat < 2 ^ 64 then
        (limbsNat (shortDivide mb.toNat 0 (limbsOf (2 * 2 ^ (h + 1)) ma).reverse).1.reverse,
          (shortDivide mb.toNat 0 (limbsOf (2 * 2 ^ (h + 1)) ma).reverse).2)
      else if ma.toNat < 2 ^ (128 * 2 ^ h) ∧ mb.toNat < 2 ^ (128 * 2 ^ h) then
        divideByPaths h (ma.setWidth _) (mb.setWidth _)
      else dominanceOrSlow (2 * 2 ^ (h + 1)) ma mb := by
  rw [divideByPaths]

theorem toNat_pos {w : Nat} {v : BitVec w} (h : v ≠ 0) : 0 < v.toNat :=
  Nat.pos_of_ne_zero fun hzero => h (BitVec.eq_of_toNat_eq (hzero.trans BitVec.toNat_zero.symm))

/-- Settles O40: by induction on the width's halvings, path by path. -/
theorem everyDividePathAgrees : Obligations.EveryDividePathAgrees := by
  unfold Obligations.EveryDividePathAgrees
  intro h ma mb hmb
  induction h with
  | zero =>
    have hwidth : 64 * (2 * 2 ^ 0) = 128 * 2 ^ 0 := rfl
    rw [divideByPaths_zero]
    split_ifs
    · exact shortDivide_limbsOf hwidth ma (toNat_pos hmb)
    · exact dominanceOrSlow_eq hwidth ma (toNat_pos hmb)
  | succ h ih =>
    have hwidth : 64 * (2 * 2 ^ (h + 1)) = 128 * 2 ^ (h + 1) := by ring
    rw [divideByPaths_succ]
    split_ifs with hshort hhalf
    · exact shortDivide_limbsOf hwidth ma (toNat_pos hmb)
    · have hlow {v : BitVec (128 * 2 ^ (h + 1))} (hv : v.toNat < 2 ^ (128 * 2 ^ h)) :
          (v.setWidth (128 * 2 ^ h)).toNat = v.toNat := by
        rw [BitVec.toNat_setWidth, Nat.mod_eq_of_lt hv]
      have hne : mb.setWidth (128 * 2 ^ h) ≠ 0 := fun hzero => by
        have hmbpos := toNat_pos hmb
        rw [← hlow hhalf.2, hzero, BitVec.ofNat_eq_ofNat, BitVec.toNat_zero] at hmbpos
        exact hmbpos.false
      rw [ih _ _ hne, hlow hhalf.1, hlow hhalf.2]
    · exact dominanceOrSlow_eq hwidth ma (toNat_pos hmb)

end Sys2Proof.Proofs

/-! PROOFS. The barrel structure over limbs gives the shifts, and comparing limbs most significant first gives ORD
(44_bitwise_shift_count.md rule R172, 45_comparison.md rule R192). -/

namespace Sys2Proof.Proofs

open Sys2Proof Sys2Proof.Machine

/-! ### The bits of a limb array with a fill above it -/

/-- The bits of a value, and above its width a fill bit. -/
def filledBit {w : Nat} (a : BitVec w) (fill : Bool) (p : Nat) : Bool := if p < w then a.getLsbD p else fill

/-- A limb of one repeated bit (R172). -/
def fillLimb (fill : Bool) : Limb := if fill then BitVec.allOnes 64 else 0

theorem filledBit_false {w : Nat} (a : BitVec w) (p : Nat) : filledBit a false p = a.getLsbD p := by
  unfold filledBit
  split_ifs with hp
  · rfl
  · rw [BitVec.getLsbD_of_ge a p (by omega)]

theorem fillLimb_getLsbD (fill : Bool) {j : Nat} (hj : j < 64) : (fillLimb fill).getLsbD j = fill := by
  cases fill with
  | false => exact BitVec.getLsbD_zero
  | true => exact BitVec.getLsbD_allOnes.trans (decide_eq_true hj)

theorem limb_getLsbD {w : Nat} (v : BitVec w) (i : Nat) {j : Nat} (hj : j < 64) :
    (limb v i).getLsbD j = v.getLsbD (64 * i + j) := by
  rw [limb, BitVec.getLsbD_extractLsb', decide_eq_true hj, Bool.true_and]

/-- A limb read from the array, or the fill limb where there is none. -/
theorem limbsOf_getD_getLsbD {w count : Nat} (hw : 64 * count = w) (a : BitVec w) (fill : Bool) (i : Nat) {j : Nat}
    (hj : j < 64) : ((limbsOf count a).getD i (fillLimb fill)).getLsbD j = filledBit a fill (64 * i + j) := by
  rw [List.getD_eq_getElem?_getD, limbsOf, List.getElem?_map, filledBit]
  by_cases hi : i < count
  · rw [List.getElem?_range hi, Option.map_some, Option.getD_some, limb_getLsbD a i hj, if_pos (by omega)]
  · rw [List.getElem?_eq_none (by simpa using hi), Option.map_none, Option.getD_none, fillLimb_getLsbD fill hj,
      if_neg (by omega)]

/-! ### The barrel structure (R172) -/

/-- The bit of a limb of a left shift: from the limb k below when it lies from t up, else from the limb below that. -/
theorem combined_left_getLsbD {w : Nat} (a : BitVec w) {x y : Limb} {i k t j : Nat} (ht : t < 64)
    (hj : j < 64) (hx : ∀ b < 64, x.getLsbD b = a.getLsbD (64 * (i - k) + b))
    (hy : ∀ b < 64, y.getLsbD b = a.getLsbD (64 * (i - k - 1) + b)) :
    ((if k ≤ i then x <<< t else 0) ||| (if k + 1 ≤ i then y >>> (64 - t) else 0)).getLsbD j =
      (!decide (64 * i + j < 64 * k + t) && a.getLsbD (64 * i + j - (64 * k + t))) := by
  simp only [BitVec.getLsbD_or, apply_ite (fun v : Limb => v.getLsbD j), BitVec.getLsbD_shiftLeft,
    BitVec.getLsbD_ushiftRight, BitVec.ofNat_eq_ofNat, BitVec.getLsbD_zero, hj, decide_true, Bool.true_and]
  by_cases hjt : j < t
  · rw [hy _ (by omega), decide_eq_true hjt, Bool.not_true, Bool.false_and, ite_self, Bool.false_or]
    split_ifs with hk
    · rw [decide_eq_false (by omega), Bool.not_false, Bool.true_and]
      congr 1
      omega
    · rw [decide_eq_true (by omega), Bool.not_true, Bool.false_and]
  · rw [hx _ (by omega), BitVec.getLsbD_of_ge y _ (by omega), decide_eq_false hjt, Bool.not_false, Bool.true_and,
      ite_self, Bool.or_false]
    split_ifs with hk
    · rw [decide_eq_false (by omega), Bool.not_false, Bool.true_and]
      congr 1
      omega
    · rw [decide_eq_true (by omega), Bool.not_true, Bool.false_and]

/-- Whole limbs moved up and neighbours combined are the limbs of the left shift. -/
theorem barrelLeft_limbsOf {w count : Nat} (hw : 64 * count = w) (a : BitVec w) (n : Nat) :
    barrelLeft count n (limbsOf count a) = limbsOf count (a <<< n) := by
  have hread (i : Nat) {j : Nat} (hj : j < 64) :
      ((limbsOf count a).getD i 0).getLsbD j = a.getLsbD (64 * i + j) :=
    (limbsOf_getD_getLsbD hw a false i hj).trans (filledBit_false a _)
  have hn : 64 * (n / 64) + n % 64 = n := Nat.div_add_mod n 64
  refine List.map_congr_left fun i hi => BitVec.eq_of_getLsbD_eq fun j hj => ?_
  have hin : 64 * i + j < w := by
    have hcount := List.mem_range.1 hi
    omega
  rw [limb_getLsbD _ i hj, BitVec.getLsbD_shiftLeft, decide_eq_true hin, Bool.true_and]
  by_cases ht : n % 64 = 0
  · rw [if_pos ht]
    split_ifs with hk
    · rw [hread _ hj, decide_eq_false (by omega), Bool.not_false, Bool.true_and]
      congr 1
      omega
    · rw [decide_eq_true (by omega), Bool.not_true, Bool.false_and]
      exact BitVec.getLsbD_zero
  · rw [if_neg ht]
    refine (combined_left_getLsbD a (Nat.mod_lt n (by decide)) hj (fun b hb => hread _ hb)
      (fun b hb => hread _ hb)).trans ?_
    rw [hn]

/-- The bit of a limb of a right shift: from the limb k above while that has bits left, else from the limb above that. -/
theorem combined_right_getLsbD {bit : Nat → Bool} {x y : Limb} {i k t j : Nat} (ht : t < 64) (hj : j < 64)
    (hx : ∀ b < 64, x.getLsbD b = bit (64 * (i + k) + b)) (hy : ∀ b < 64, y.getLsbD b = bit (64 * (i + k + 1) + b)) :
    (x >>> t ||| y <<< (64 - t)).getLsbD j = bit (64 * i + j + (64 * k + t)) := by
  rw [BitVec.getLsbD_or, BitVec.getLsbD_ushiftRight, BitVec.getLsbD_shiftLeft, decide_eq_true hj, Bool.true_and]
  by_cases hjt : t + j < 64
  · rw [hx _ hjt, decide_eq_true (by omega), Bool.not_true, Bool.false_and, Bool.or_false]
    congr 1
    omega
  · rw [BitVec.getLsbD_of_ge x _ (by omega), hy _ (by omega), decide_eq_false (by omega), Bool.not_false, Bool.true_and,
      Bool.false_or]
    congr 1
    omega

/-- Whole limbs moved down, the fill limb above, and neighbours combined are the limbs of any right shift with that fill. -/
theorem barrelRight_limbsOf {w count : Nat} (hw : 64 * count = w) (a v : BitVec w) (fill : Bool) (n : Nat)
    (hv : ∀ p < w, v.getLsbD p = filledBit a fill (p + n)) :
    barrelRight (fillLimb fill) count n (limbsOf count a) = limbsOf count v := by
  have hread (i : Nat) {j : Nat} (hj : j < 64) := limbsOf_getD_getLsbD hw a fill i hj
  have hn : 64 * (n / 64) + n % 64 = n := Nat.div_add_mod n 64
  refine List.map_congr_left fun i hi => BitVec.eq_of_getLsbD_eq fun j hj => ?_
  have hin : 64 * i + j < w := by
    have hcount := List.mem_range.1 hi
    omega
  rw [limb_getLsbD _ i hj, hv _ hin]
  split_ifs with ht
  · rw [hread _ hj]
    congr 1
    omega
  · refine (combined_right_getLsbD (Nat.mod_lt n (by decide)) hj (fun b hb => hread _ hb)
      (fun b hb => hread _ hb)).trans ?_
    rw [hn]

theorem shiftRightLogical_filled {w : Nat} (a : BitVec w) (n : Nat) :
    ∀ p < w, (shiftRightLogical a n).getLsbD p = filledBit a false (p + n) := by
  intro p _
  rw [shiftRightLogical_getLsbD, filledBit_false]

theorem shiftRightArithmetic_filled {w : Nat} (a : BitVec w) (n : Nat) :
    ∀ p < w, (shiftRightArithmetic a n).getLsbD p = filledBit a (sign a) (p + n) := by
  intro p hp
  rw [shiftRightArithmetic_getLsbD, if_neg (by omega), filledBit, sign, BitVec.msb_eq_getLsbD_last]

/-- The limbs of a result on port R denote it. -/
theorem limbsNat_eq_port {ty : Ty} {ls : List Limb} {v : BitVec ty.bits} (h : ls = limbsOf ty.width.limbs v) :
    limbsNat ls = (port v).toNat := by
  rw [h, limbsNat_limbsOf_bits, port_toNat ty.bits_le_port]

/-- The fill of SHR: the sign on a signed type, zero on an unsigned one (R168). -/
theorem shr_filled (ty : Ty) (a : BitVec ty.bits) (n : Nat) :
    ∀ p < ty.bits, (if ty.signed then shiftRightArithmetic a n else shiftRightLogical a n).getLsbD p =
      filledBit a (ty.signed && sign a) (p + n) := by
  cases ty.signed with
  | true => exact shiftRightArithmetic_filled a n
  | false => exact shiftRightLogical_filled a n

/-- Settles O45: the barrel structure gives the limbs of each shift's result. -/
theorem barrelStructureShifts : Obligations.BarrelStructureShifts := by
  unfold Obligations.BarrelStructureShifts
  intro ty q
  have hw := ty.width.limbs_mul
  refine ⟨⟨_, (responds_iff _ q _).2 rfl, limbsNat_eq_port ?shl⟩, ⟨_, (responds_iff _ q _).2 rfl, limbsNat_eq_port ?shrl⟩,
    ⟨_, (responds_iff _ q _).2 (meaning_shr ty q), limbsNat_eq_port ?shr⟩⟩
  case shl =>
    rw [shiftLeft_eq]
    exact barrelLeft_limbsOf hw _ _
  case shrl => exact barrelRight_limbsOf hw _ _ false _ (shiftRightLogical_filled _ _)
  case shr => exact barrelRight_limbsOf hw _ _ _ _ (shr_filled ty _ _)

/-! ### Lexicographic order (R192) -/

/-- A leading digit decides an order, the digits below it being smaller than its weight. -/
theorem lt_of_leading_digit_lt {x y P c d : Nat} (hx : x < P) (h : c < d) : x + P * c < y + P * d := by
  have hmul : P * (c + 1) ≤ P * d := Nat.mul_le_mul_left P h
  rw [Nat.mul_succ] at hmul
  omega

/-- Limbs most significant first are ordered as the numbers they denote. -/
theorem limbOrder_eq_ordering {as bs : List Limb} (h : as.length = bs.length) :
    limbOrder as bs = ordering (limbsNat as.reverse : Int) (limbsNat bs.reverse : Int) := by
  induction as generalizing bs with
  | nil =>
    obtain rfl := List.length_eq_zero_iff.1 h.symm
    exact (ordering_self _).symm
  | cons a as ih =>
    obtain _ | ⟨b, bs⟩ := bs
    · cases h
    have hlen : as.length = bs.length := Nat.succ.inj h
    have has := limbsNat_lt as.reverse
    have hbs := limbsNat_lt bs.reverse
    rw [List.length_reverse] at has hbs
    rw [limbOrder, limbsNat_reverse_cons, limbsNat_reverse_cons, ← hlen]
    split_ifs with hless hgreater
    · exact (ordering_of_lt (Int.ofNat_lt.2 (lt_of_leading_digit_lt has (BitVec.lt_def.1 hless)))).symm
    · exact (ordering_of_gt (Int.ofNat_lt.2 (lt_of_leading_digit_lt (hlen ▸ hbs) (BitVec.lt_def.1 hgreater)))).symm
    · have hequal : a.toNat = b.toNat := by
        rw [BitVec.lt_def] at hless hgreater
        omega
      rw [ih hlen, hequal]
      simp [ordering]

theorem unsignedOrder_eq (ty : Ty) (a b : BitVec ty.bits) :
    unsignedOrder ty.width.limbs a b = ordering (uval a) (uval b) := by
  rw [unsignedOrder, limbOrder_eq_ordering (by simp), List.reverse_reverse, List.reverse_reverse,
    limbsNat_limbsOf_bits, limbsNat_limbsOf_bits, uval, uval]

/-- An order does not change when both values move by the same amount. -/
theorem ordering_sub_right (x y c : Int) : ordering (x - c) (y - c) = ordering x y := by
  simp only [ordering, sub_left_inj, sub_lt_sub_iff_right]

/-- The sign bits decide when they differ; when they agree the signed order is the unsigned one. -/
theorem signedOrder_eq (ty : Ty) (a b : BitVec ty.bits) :
    signedOrder ty.width.limbs a b = ordering (sval a) (sval b) := by
  have hsa := sign_iff_neg a
  have hsb := sign_iff_neg b
  rw [signedOrder, unsignedOrder_eq]
  cases ha : sign a with
  | false =>
    rw [ha] at hsa
    cases hb : sign b with
    | false =>
      rw [sval_eq, sval_eq, ha, hb, ordering_sub_right]
      rfl
    | true => exact (ordering_of_gt (by grind)).symm
  | true =>
    cases hb : sign b with
    | false =>
      rw [hb] at hsb
      exact (ordering_of_lt (by grind)).symm
    | true =>
      rw [sval_eq, sval_eq, ha, hb, ordering_sub_right]
      rfl

/-- Settles O49: the order by limbs is the order of the values read by S. -/
theorem cmpIsLexicographic : Obligations.CmpIsLexicographic := by
  unfold Obligations.CmpIsLexicographic
  intro ty q
  have horder : (if ty.signed then signedOrder ty.width.limbs (operandA ty q) (operandB ty q)
      else unsignedOrder ty.width.limbs (operandA ty q) (operandB ty q)) =
      ordering (val ty.signed (operandA ty q)) (val ty.signed (operandB ty q)) := by
    rw [signedOrder_eq, unsignedOrder_eq]
    cases ty.signed <;> rfl
  exact horder ▸ (responds_iff _ q _).2 rfl

end Sys2Proof.Proofs

/-! PROOFS. The count units: what the leading and trailing zero counts and the population count are in terms of the one bits,
and the recursions on halves (44_bitwise_shift_count.md rules R173 to R176). -/

namespace Sys2Proof.Proofs

open Sys2Proof Sys2Proof.Machine

/-! ### Leading zeros (R173) -/

/-- A window of l zero bits above the low k bits adds l. -/
theorem zerosBelow_add_of_zeros {w : Nat} {a : BitVec w} {k l : Nat}
    (h : ∀ j, k ≤ j → j < k + l → a.getLsbD j = false) : zerosBelow a (k + l) = zerosBelow a k + l := by
  induction l with
  | zero => rfl
  | succ l ih =>
    rw [← Nat.add_assoc, zerosBelow, h (k + l) (by omega) (by omega), if_neg Bool.false_ne_true,
      ih fun j hk hl => h j hk (by omega), Nat.add_assoc]

/-- The count stops at the largest one bit. -/
theorem zerosBelow_of_largest {w : Nat} {a : BitVec w} {j l : Nat} (hj : a.getLsbD j = true)
    (h : ∀ k, j < k → k < j + 1 + l → a.getLsbD k = false) : zerosBelow a (j + 1 + l) = l := by
  rw [zerosBelow_add_of_zeros fun k hk hl => h k (by omega) hl, zerosBelow, if_pos hj, Nat.zero_add]

/-! ### Trailing zeros (R174) -/

/-- A window of l zero bits adds l to the count above it. -/
theorem zerosFrom_add_of_zeros {w : Nat} {a : BitVec w} {i k l : Nat}
    (h : ∀ j, i ≤ j → j < i + l → a.getLsbD j = false) : zerosFrom a i (l + k) = zerosFrom a (i + l) k + l := by
  induction l generalizing i with
  | zero => rw [Nat.zero_add, Nat.add_zero, Nat.add_zero]
  | succ l ih =>
    rw [Nat.add_right_comm, zerosFrom, h i le_rfl (by omega), if_neg Bool.false_ne_true,
      ih fun j hi hl => h j (by omega) (by omega), Nat.add_assoc, Nat.add_right_comm, Nat.add_assoc]

/-- The count stops at the smallest one bit. -/
theorem zerosFrom_of_smallest {w : Nat} {a : BitVec w} {j k : Nat} (hj : a.getLsbD j = true)
    (h : ∀ i, i < j → a.getLsbD i = false) : zerosFrom a 0 (j + (k + 1)) = j := by
  rw [zerosFrom_add_of_zeros fun i _ hi => h i (by omega), Nat.zero_add, zerosFrom, if_pos hj, Nat.zero_add]

/-! ### One bits (R175) -/

theorem onesBelow_eq_length_filter {w : Nat} (a : BitVec w) (k : Nat) :
    onesBelow a k = ((List.range k).filter fun j => a.getLsbD j).length := by
  induction k with
  | zero => rfl
  | succ k ih =>
    rw [onesBelow, ih, List.range_succ, List.filter_append, List.length_append, List.filter_singleton]
    cases a.getLsbD k <;> rfl

/-! ### The counts of an operand -/

theorem ofNat_toNat_of_le {n m : Nat} (h : n ≤ m) : (BitVec.ofNat m n).toNat = n := by
  have hlt : n < 2 ^ n := Nat.lt_two_pow_self
  rw [BitVec.toNat_ofNat, Nat.mod_eq_of_lt (hlt.trans_le (Nat.pow_le_pow_right two_pos h))]

/-- A count is at most 512, so it stands on the port unchanged. -/
theorem okCount_toNat {n : Nat} (hn : n ≤ 512) : (port (BitVec.ofNat 512 n)).toNat = n :=
  (port_toNat le_rfl _).trans (ofNat_toNat_of_le hn)

theorem zero_getLsbD {w : Nat} {a : BitVec w} (h : a = 0) (j : Nat) : a.getLsbD j = false := by
  rw [h]
  exact BitVec.getLsbD_zero

/-- An instruction that counts returns its count on R and nothing else. -/
theorem exists_returns_count {i : Instr} {q : Request} {n : Nat} {P : Nat → Prop} (hn : n ≤ 512)
    (hm : meaning i q = okCount n) (hP : P n) : ∃ v, Returns i q v ∧ OnlyR v ∧ P v.r.toNat :=
  ⟨_, (responds_iff i q _).2 hm, ⟨rfl, rfl, rfl, rfl⟩, (okCount_toNat hn).symm ▸ hP⟩

/-- R173: the distance of the largest one bit from the top, the width where there is none. -/
def IsLeadingCount {w : Nat} (a : BitVec w) (n : Nat) : Prop :=
  (a = 0 → n = w) ∧ ∀ j : Nat, a.getLsbD j = true → (∀ k : Nat, j < k → a.getLsbD k = false) → n = w - 1 - j

/-- R174: the index of the smallest one bit, the width where there is none. -/
def IsTrailingCount {w : Nat} (a : BitVec w) (n : Nat) : Prop :=
  (a = 0 → n = w) ∧ ∀ j : Nat, a.getLsbD j = true → (∀ k : Nat, k < j → a.getLsbD k = false) → n = j

/-- R175: the number of one bits. -/
def IsOneCount {w : Nat} (a : BitVec w) (n : Nat) : Prop := n = ((List.range w).filter fun j => a.getLsbD j).length

theorem isLeadingCount_leadingZeros {w : Nat} (a : BitVec w) : IsLeadingCount a (leadingZeros a) := by
  refine ⟨fun hzero => ?_, fun j hj habove => ?_⟩
  · have hall := zerosBelow_add_of_zeros (k := 0) (l := w) fun j _ _ => zero_getLsbD hzero j
    rwa [Nat.zero_add, zerosBelow, Nat.zero_add] at hall
  · have hw : j + 1 + (w - 1 - j) = w := by
      have hlt := BitVec.lt_of_getLsbD hj
      omega
    have hcount := zerosBelow_of_largest (l := w - 1 - j) hj fun k hk _ => habove k hk
    rwa [hw] at hcount

theorem isTrailingCount_trailingZeros {w : Nat} (a : BitVec w) : IsTrailingCount a (trailingZeros a) := by
  refine ⟨fun hzero => ?_, fun j hj hbelow => ?_⟩
  · have hall := zerosFrom_add_of_zeros (i := 0) (k := 0) (l := w) fun j _ _ => zero_getLsbD hzero j
    rwa [Nat.add_zero, zerosFrom, Nat.zero_add] at hall
  · have hw : j + (w - 1 - j + 1) = w := by
      have hlt := BitVec.lt_of_getLsbD hj
      omega
    have hcount := zerosFrom_of_smallest (k := w - 1 - j) hj hbelow
    rwa [hw] at hcount

theorem isOneCount_populationCount {w : Nat} (a : BitVec w) : IsOneCount a (populationCount a) :=
  onesBelow_eq_length_filter a w

/-- Settles O46: the words by R61's sum, each result by what its count is in terms of the one bits. -/
theorem countsCountBits : Obligations.CountsCountBits := by
  unfold Obligations.CountsCountBits
  intro ty q
  have hfit := ty.bits_le_port
  have hlzc := exists_returns_count (i := .lzc ty) (q := q) ((zerosBelow_le _ _).trans hfit) rfl
    (isLeadingCount_leadingZeros (operandA ty q))
  have htzc := exists_returns_count (i := .tzc ty) (q := q) ((zerosFrom_le _ _ _).trans hfit) rfl
    (isTrailingCount_trailingZeros (operandA ty q))
  have hpopc := exists_returns_count (i := .popc ty) (q := q) ((onesBelow_le _ _).trans hfit) rfl
    (isOneCount_populationCount (operandA ty q))
  exact ⟨wordOf_command_toNat 0x29 0 0 ty, wordOf_command_toNat 0x2A 0 0 ty, wordOf_command_toNat 0x2B 0 0 ty,
    hlzc, htzc, hpopc⟩

/-! ### The recursions on halves (R176) -/

theorem zerosBelow_congr {w w' : Nat} {a : BitVec w} {b : BitVec w'} {k : Nat}
    (h : ∀ j < k, a.getLsbD j = b.getLsbD j) : zerosBelow a k = zerosBelow b k := by
  induction k with
  | zero => rfl
  | succ k ih => rw [zerosBelow, zerosBelow, h k (by omega), ih fun j hj => h j (by omega)]

/-- With a one bit in the window of l bits above the low k bits, the count is the window's. -/
theorem zerosBelow_add_of_window {w w' : Nat} {a : BitVec w} {b : BitVec w'} {k l : Nat}
    (h : ∀ j < l, a.getLsbD (k + j) = b.getLsbD j) (hone : ∃ j < l, b.getLsbD j = true) :
    zerosBelow a (k + l) = zerosBelow b l := by
  induction l with
  | zero =>
    obtain ⟨j, hj, -⟩ := hone
    omega
  | succ l ih =>
    rw [← Nat.add_assoc, zerosBelow, zerosBelow, h l (by omega)]
    split_ifs with htop
    · rfl
    · obtain ⟨j, hj, hbit⟩ := hone
      have hne : j ≠ l := fun heq => htop (heq ▸ hbit)
      rw [ih (fun j hj => h j (by omega)) ⟨j, by omega, hbit⟩]

theorem zerosFrom_congr {w w' : Nat} {a : BitVec w} {b : BitVec w'} {i i' k : Nat}
    (h : ∀ j < k, a.getLsbD (i + j) = b.getLsbD (i' + j)) : zerosFrom a i k = zerosFrom b i' k := by
  induction k generalizing i i' with
  | zero => rfl
  | succ k ih =>
    have hnext (j : Nat) (hj : j < k) : a.getLsbD (i + 1 + j) = b.getLsbD (i' + 1 + j) := by
      rw [Nat.add_right_comm, Nat.add_assoc, h (j + 1) (by omega), Nat.add_right_comm, Nat.add_assoc]
    rw [zerosFrom, zerosFrom, ih hnext, show a.getLsbD i = b.getLsbD i' from h 0 (by omega)]

/-- With a one bit among the l bits from bit i up, the bits above do not count. -/
theorem zerosFrom_add_of_one {w : Nat} {a : BitVec w} {i k l : Nat} (hone : ∃ j < l, a.getLsbD (i + j) = true) :
    zerosFrom a i (l + k) = zerosFrom a i l := by
  induction l generalizing i with
  | zero =>
    obtain ⟨j, hj, -⟩ := hone
    omega
  | succ l ih =>
    rw [Nat.add_right_comm, zerosFrom, zerosFrom]
    split_ifs with hlow
    · rfl
    · obtain ⟨j, hj, hbit⟩ := hone
      obtain _ | j := j
      · exact absurd hbit hlow
      · rw [ih ⟨j, by omega, by rwa [Nat.add_right_comm, Nat.add_assoc]⟩]

theorem onesBelow_add {w w' w'' : Nat} {a : BitVec w} {b : BitVec w'} {c : BitVec w''} {k l : Nat}
    (hb : ∀ j < k, a.getLsbD j = b.getLsbD j) (hc : ∀ j < l, a.getLsbD (k + j) = c.getLsbD j) :
    onesBelow a (k + l) = onesBelow b k + onesBelow c l := by
  induction l with
  | zero =>
    clear hc
    induction k with
    | zero => rfl
    | succ k ih =>
      have hrest := ih fun j hj => hb j (by omega)
      rw [Nat.add_zero] at hrest ⊢
      rw [onesBelow, onesBelow, hrest, hb k (by omega)]
      rfl
  | succ l ih =>
    rw [← Nat.add_assoc, onesBelow, onesBelow, ih fun j hj => hc j (by omega), hc l (by omega), Nat.add_assoc]

/-- A nonzero pattern has a one bit. -/
theorem exists_one_bit {w : Nat} {a : BitVec w} (h : a ≠ 0) : ∃ j < w, a.getLsbD j = true := by
  by_contra hnone
  push Not at hnone
  exact h (BitVec.eq_of_getLsbD_eq fun j hj => by
    rw [Bool.eq_false_of_not_eq_true (hnone j hj)]
    exact BitVec.getLsbD_zero.symm)

section Halves

variable {m w : Nat} (hw : w = m + m) (v : BitVec w)

theorem lower_getLsbD {j : Nat} (hj : j < m) : (v.extractLsb' 0 m).getLsbD j = v.getLsbD j := by
  rw [BitVec.getLsbD_extractLsb', decide_eq_true hj, Bool.true_and, Nat.zero_add]

theorem upper_getLsbD {j : Nat} (hj : j < m) : (v.extractLsb' m m).getLsbD j = v.getLsbD (m + j) := by
  rw [BitVec.getLsbD_extractLsb', decide_eq_true hj, Bool.true_and]

include hw

/-- The leading zeros of a value: those of the upper half, or all of it and those of the lower half. -/
theorem leadingZeros_halves :
    leadingZeros v = if v.extractLsb' m m = 0 then m + leadingZeros (v.extractLsb' 0 m)
      else leadingZeros (v.extractLsb' m m) := by
  subst hw
  unfold leadingZeros
  split_ifs with hzero
  · have hall (j : Nat) (hmj : m ≤ j) (hj : j < m + m) : v.getLsbD j = false := by
      have hbit := upper_getLsbD v (show j - m < m by omega)
      rwa [zero_getLsbD hzero, Nat.add_sub_cancel' hmj, eq_comm] at hbit
    rw [zerosBelow_add_of_zeros hall, Nat.add_comm, zerosBelow_congr fun j hj => (lower_getLsbD v hj).symm]
  · exact zerosBelow_add_of_window (fun j hj => (upper_getLsbD v hj).symm) (exists_one_bit hzero)

/-- The trailing zeros of a value: those of the lower half, or all of it and those of the upper half. -/
theorem trailingZeros_halves :
    trailingZeros v = if v.extractLsb' 0 m = 0 then m + trailingZeros (v.extractLsb' m m)
      else trailingZeros (v.extractLsb' 0 m) := by
  subst hw
  unfold trailingZeros
  split_ifs with hzero
  · have hall (j : Nat) (_ : 0 ≤ j) (hj : j < 0 + m) : v.getLsbD j = false :=
      (lower_getLsbD v (by omega)).symm.trans (zero_getLsbD hzero j)
    rw [zerosFrom_add_of_zeros hall, Nat.add_comm]
    congr 1
    exact zerosFrom_congr fun j hj => by rw [Nat.zero_add, Nat.zero_add, upper_getLsbD v hj]
  · obtain ⟨j, hj, hbit⟩ := exists_one_bit hzero
    rw [zerosFrom_add_of_one ⟨j, hj, by rwa [Nat.zero_add, ← lower_getLsbD v hj]⟩]
    exact zerosFrom_congr fun j hj => by rw [Nat.zero_add, lower_getLsbD v hj]

/-- The one bits of a value are those of both halves. -/
theorem populationCount_halves :
    populationCount v = populationCount (v.extractLsb' 0 m) + populationCount (v.extractLsb' m m) := by
  subst hw
  exact onesBelow_add (fun j hj => (lower_getLsbD v hj).symm) fun j hj => (upper_getLsbD v hj).symm

end Halves

/-- Settles O47: by induction on the width's halvings, each count being the counts of the halves put together. -/
theorem countsRecurseOnHalves : Obligations.CountsRecurseOnHalves := by
  unfold Obligations.CountsRecurseOnHalves
  intro k
  induction k with
  | zero => exact fun v => ⟨rfl, rfl, rfl⟩
  | succ k ih =>
    intro v
    have hw : 64 * 2 ^ (k + 1) = 64 * 2 ^ k + 64 * 2 ^ k := by ring
    obtain ⟨hlzcLow, htzcLow, hpopcLow⟩ := ih (v.extractLsb' 0 (64 * 2 ^ k))
    obtain ⟨hlzcUp, htzcUp, hpopcUp⟩ := ih (v.extractLsb' (64 * 2 ^ k) (64 * 2 ^ k))
    refine ⟨?lzc, ?tzc, ?popc⟩
    case lzc => rw [lzcByHalves, leadingZeros_halves hw, hlzcLow, hlzcUp]
    case tzc => rw [tzcByHalves, trailingZeros_halves hw, htzcLow, htzcUp]
    case popc => rw [popcByHalves, populationCount_halves hw, hpopcLow, hpopcUp]

end Sys2Proof.Proofs

/-! PROOFS. The conversion matrix: what the three policies answer, the truncating conversions bit by bit, and the checked round
trip (46_conversion.md rules R202 to R207). -/

namespace Sys2Proof.Proofs

open Sys2Proof Sys2Proof.Machine

/-! ### The three policies (R202) -/

theorem minVal_le_maxVal (signed : Bool) (k : Nat) : minVal signed k ≤ maxVal signed k := by
  have hhalf := pow2_pos (k - 1)
  have hwhole := pow2_pos k
  cases signed
  · simp only [minVal, maxVal, Bool.false_eq_true, if_false]
    omega
  · simp only [minVal, maxVal, if_true]
    omega

theorem convertResponse_checked (signed : Bool) (k : Nat) (x : Int) :
    convertResponse .checked signed k x = if fits signed k x then okR (bv k x) else raise .overflow := by
  simp only [convertResponse, convert]
  split_ifs <;> rfl

/-- Saturating is clamping to the range of the destination. -/
theorem convertResponse_saturating (signed : Bool) (k : Nat) (x : Int) :
    convertResponse .saturating signed k x = okR (bv k (max (minVal signed k) (min (maxVal signed k) x))) := by
  have hrange := minVal_le_maxVal signed k
  simp only [convertResponse, convert]
  split_ifs with hlow hhigh
  · rw [max_eq_left ((min_le_right _ _).trans hlow.le)]
  · rw [min_eq_left hhigh.le, max_eq_right hrange]
  · rw [min_eq_right (not_lt.1 hhigh), max_eq_right (not_lt.1 hlow)]

/-- What three instructions answer that convert one value to one destination under the three policies. -/
theorem conversion_follows_rule {wrapping checked saturating : Instr} {q : Request} {signed : Bool} {k : Nat} {x : Int}
    (hw : meaning wrapping q = convertResponse .wrapping signed k x)
    (hc : meaning checked q = convertResponse .checked signed k x)
    (hs : meaning saturating q = convertResponse .saturating signed k x) :
    Returns wrapping q { r := port (bv k x) } ∧
      Returns saturating q { r := port (bv k (max (minVal signed k) (min (maxVal signed k) x))) } ∧
      (if fits signed k x then Returns checked q { r := port (bv k x) } else Raises checked q .overflow) := by
  rw [convertResponse_checked] at hc
  refine ⟨(responds_iff _ q _).2 hw, (responds_iff _ q _).2 (hs.trans (convertResponse_saturating signed k x)), ?_⟩
  split_ifs with hfits
  · exact (responds_iff _ q _).2 (hc.trans (if_pos hfits))
  · exact (responds_iff _ q _).2 (hc.trans (if_neg hfits))

/-! ### The kinds (R201, R203) -/

theorem cvttoResponse_of_kindBits {kind : Kind} {k : Nat} (hk : kindBits kind = some k) (pol : Policy) (ty : Ty)
    (q : Request) :
    cvttoResponse pol ty kind q = convertResponse pol (kindSigned kind) k (val ty.signed (operandA ty q)) := by
  simp only [cvttoResponse, hk]

theorem cvtfromResponse_of_kindBits {kind : Kind} {k : Nat} (hk : kindBits kind = some k) (pol : Policy) (ty : Ty)
    (q : Request) :
    cvtfromResponse pol ty kind q = convertResponse pol ty.signed ty.bits (val (kindSigned kind) (sourceA k q)) := by
  simp only [cvtfromResponse, hk]

theorem kindBits_bounds {kind : Kind} {k : Nat} (h : kindBits kind = some k) : 0 < k ∧ k ≤ 512 := by
  cases kind <;> cases h <;> decide

/-- A conversion's word: opcode and policy, type, and KIND (R61, R65). -/
theorem conversion_word (opc : BitVec 6) (pol : BitVec 2) (ty : Ty) (kind : Kind) :
    (wordOf (command opc pol kind.code ty)).toNat =
      opc.toNat + 256 * pol.toNat + typeBits ty + 1024 * kind.code.toNat := by
  rw [wordOf_command_toNat]
  omega

theorem raises_unmapped {ty : Ty} {kind : Kind} {i : Instr} (hi : i ∈ conversions ty kind) (hk : kindBits kind = none)
    (q : Request) : Raises i q .unsupportedConversion :=
  (responds_iff i q _).2 (meaning_conversion_unmapped hi hk q)

/-- Settles O50: an unmapped kind is unsupported under every policy, any other converts a's value to the kind. -/
theorem cvttoFollowsItsRule : Obligations.CvttoFollowsItsRule := by
  unfold Obligations.CvttoFollowsItsRule
  intro ty kind q
  refine ⟨conversion_word 0x34 0 ty kind, conversion_word 0x34 1 ty kind, conversion_word 0x34 2 ty kind, ?_⟩
  split
  next hk =>
    exact fun i hi => raises_unmapped (List.mem_append_left [.cvtfrom ty kind, .cvtfromC ty kind, .cvtfromSat ty kind] hi)
      hk q
  next k hk =>
    exact conversion_follows_rule (cvttoResponse_of_kindBits hk .wrapping ty q)
      (cvttoResponse_of_kindBits hk .checked ty q) (cvttoResponse_of_kindBits hk .saturating ty q)

/-- Settles O51: an unmapped kind is unsupported under every policy, any other converts the kind's value to the type. -/
theorem cvtfromFollowsItsRule : Obligations.CvtfromFollowsItsRule := by
  unfold Obligations.CvtfromFollowsItsRule
  intro ty kind q
  refine ⟨conversion_word 0x35 0 ty kind, conversion_word 0x35 1 ty kind, conversion_word 0x35 2 ty kind, ?_⟩
  split
  next hk =>
    exact fun i hi => raises_unmapped (List.mem_append_right [.cvtto ty kind, .cvttoC ty kind, .cvttoSat ty kind] hi) hk q
  next k hk =>
    exact conversion_follows_rule (cvtfromResponse_of_kindBits hk .wrapping ty q)
      (cvtfromResponse_of_kindBits hk .checked ty q) (cvtfromResponse_of_kindBits hk .saturating ty q)

/-! ### Truncating conversions, bit by bit -/

/-- A value taken to another width keeps its low bits and is extended by its sign or by zeros. -/
theorem bv_val_getLsbD (signed : Bool) {n : Nat} (a : BitVec n) (k j : Nat) :
    (bv k (val signed a)).getLsbD j =
      if k ≤ j then false else if j < n then a.getLsbD j else signed && a.getLsbD (n - 1) := by
  cases signed with
  | false =>
    have hbv : bv k (val false a) = a.setWidth k := (bv_natCast k a.toNat).trans (BitVec.ofNat_toNat k a)
    rw [hbv, BitVec.getLsbD_setWidth]
    split_ifs with hk hn
    · rw [decide_eq_false (by omega), Bool.false_and]
    · rw [decide_eq_true (by omega), Bool.true_and]
    · rw [BitVec.getLsbD_of_ge a j (by omega), Bool.and_false, Bool.false_and]
  | true =>
    have hbv : bv k (val true a) = a.signExtend k := rfl
    rw [hbv, BitVec.getLsbD_signExtend, BitVec.msb_eq_getLsbD_last]
    by_cases hk : k ≤ j
    · rw [if_pos hk, decide_eq_false (by omega), Bool.false_and]
    · rw [if_neg hk, decide_eq_true (by omega), Bool.true_and, Bool.true_and]

theorem sourceA_getLsbD_of_lt {k j : Nat} (h : j < k) (q : Request) : (sourceA k q).getLsbD j = q.a.getLsbD j := by
  rw [sourceA, BitVec.getLsbD_setWidth, decide_eq_true h, Bool.true_and]

/-- Settles O52: both directions are the value of a pattern taken to another width. -/
theorem truncatingConversionExtends : Obligations.TruncatingConversionExtends := by
  unfold Obligations.TruncatingConversionExtends
  intro ty kind k q hk
  obtain ⟨hkpos, hkfit⟩ := kindBits_bounds hk
  refine ⟨exists_returns_onlyR hkfit (cvttoResponse_of_kindBits hk .wrapping ty q) fun j => ?cvtto,
    exists_returns_onlyR ty.bits_le_port (cvtfromResponse_of_kindBits hk .wrapping ty q) fun j => ?cvtfrom⟩
  case cvtto =>
    rw [bv_val_getLsbD, operandA_getLsbD_of_lt (Nat.sub_one_lt_of_lt ty.bits_pos)]
    split_ifs with hjk hj
    · rfl
    · exact operandA_getLsbD_of_lt hj q
    · rfl
  case cvtfrom =>
    rw [bv_val_getLsbD, sourceA_getLsbD_of_lt (Nat.sub_one_lt_of_lt hkpos)]
    split_ifs with hjW hj
    · rfl
    · exact sourceA_getLsbD_of_lt hj q
    · rfl

/-! ### The checked round trip (R207) -/

/-- A checked conversion that gives a value gives the pattern of a number that fits. -/
theorem convertResponse_checked_value {signed : Bool} {k : Nat} {x : Int} {v : Value}
    (h : convertResponse .checked signed k x = .value v) : fits signed k x = true ∧ v = { r := port (bv k x) } := by
  rw [convertResponse_checked] at h
  split_ifs at h with hfits
  · exact ⟨hfits, (Response.value.inj h).symm⟩
  · cases h

/-- Settles O54: a number that fits the kind is read back from its pattern, and the type's pattern of it is the operand. -/
theorem checkedConversionRoundTrip : Obligations.CheckedConversionRoundTrip := by
  unfold Obligations.CheckedConversionRoundTrip
  intro ty kind x v w hto hfrom
  replace hto := (responds_iff _ _ _).1 hto
  replace hfrom := (responds_iff _ _ _).1 hfrom
  cases hk : kindBits kind with
  | none =>
    have hmem : Instr.cvttoC ty kind ∈ conversions ty kind := by simp [conversions]
    cases (meaning_conversion_unmapped hmem hk _).symm.trans hto
  | some k =>
    obtain ⟨hkpos, hkfit⟩ := kindBits_bounds hk
    obtain ⟨hfits, rfl⟩ := convertResponse_checked_value ((cvttoResponse_of_kindBits hk .checked ty _).symm.trans hto)
    obtain ⟨-, rfl⟩ := convertResponse_checked_value ((cvtfromResponse_of_kindBits hk .checked ty _).symm.trans hfrom)
    have hsource (p : BitVec k) (b : Port) : sourceA k (ports (port p) b) = p := setWidth_port hkfit p
    rw [hsource, val_bv_of_fits hkpos hfits, bv_val]
    rfl

end Sys2Proof.Proofs

/-! PROOFS. The byte codec: the bytes of a value in either order and the number some bytes denote, what the writes and the reads
answer, and that what is written is read back (47_codec.md rules R221 to R230). -/

namespace Sys2Proof.Proofs

open Sys2Proof Sys2Proof.Machine

/-! ### Numbers and their bytes (R41, R42) -/

theorem bytesNat_append (xs ys : List Byte) :
    bytesNat (xs ++ ys) = bytesNat xs + 2 ^ (8 * xs.length) * bytesNat ys := by
  induction xs with
  | nil => simp [bytesNat]
  | cons x xs ih =>
    rw [List.cons_append, bytesNat, bytesNat, ih, List.length_cons, Nat.mul_succ, pow_add]
    ring

theorem byte_toNat {w : Nat} (v : BitVec w) (i : Nat) : (byte v i).toNat = v.toNat / 2 ^ (8 * i) % 2 ^ 8 := by
  rw [byte, BitVec.extractLsb'_toNat, Nat.shiftRight_eq_div_pow]

theorem littleEndian_succ {w : Nat} (n : Nat) (v : BitVec w) :
    littleEndian (n + 1) v = littleEndian n v ++ [byte v n] := by
  simp [littleEndian, List.range_succ]

/-- The low bytes of a value, least significant first, denote its low bits. -/
theorem bytesNat_littleEndian {w : Nat} (n : Nat) (v : BitVec w) :
    bytesNat (littleEndian n v) = v.toNat % 2 ^ (8 * n) := by
  induction n with
  | zero => simp [littleEndian, bytesNat, Nat.mod_one]
  | succ n ih =>
    have hlast : bytesNat [byte v n] = v.toNat / 2 ^ (8 * n) % 2 ^ 8 := by
      rw [bytesNat, bytesNat, byte_toNat, Nat.mul_zero, Nat.add_zero]
    rw [littleEndian_succ, bytesNat_append, ih, hlast, littleEndian_length, Nat.mul_succ, pow_add, Nat.mod_mul]

/-- Most significant first is the reverse of least significant first. -/
theorem bigEndian_eq_reverse {w : Nat} (n : Nat) (v : BitVec w) : bigEndian n v = (littleEndian n v).reverse :=
  List.ext_getElem (by simp [bigEndian, littleEndian]) fun i _ _ => by simp [bigEndian, littleEndian]

theorem bytesNat_div_mod {qs : List Byte} {i : Nat} (h : i < qs.length) :
    bytesNat qs / 2 ^ (8 * i) % 2 ^ 8 = qs[i].toNat := by
  induction qs generalizing i with
  | nil => cases h
  | cons q qs ih =>
    have hq := q.isLt
    cases i with
    | zero =>
      rw [bytesNat, Nat.mul_zero, pow_zero, Nat.div_one, List.getElem_cons_zero]
      omega
    | succ i =>
      have hshift : (q.toNat + 256 * bytesNat qs) / 2 ^ 8 = bytesNat qs := by omega
      rw [bytesNat, Nat.mul_succ, Nat.add_comm (8 * i), pow_add, ← Nat.div_div_eq_div_mul, hshift,
        ih (Nat.lt_of_succ_lt_succ h), List.getElem_cons_succ]

theorem ofNat_toNat_of_lt {n k m : Nat} (h : n < 2 ^ k) (hk : k ≤ m) : (BitVec.ofNat m n).toNat = n := by
  rw [BitVec.toNat_ofNat, Nat.mod_eq_of_lt (h.trans_le (Nat.pow_le_pow_right two_pos hk))]

theorem bytesPort_toNat {qs : List Byte} (h : qs.length ≤ 64) : (bytesPort qs).toNat = bytesNat qs :=
  ofNat_toNat_of_lt (bytesNat_lt qs) (by omega)

/-- Each byte of a sequence stands in its own lane (R43). -/
theorem byte_bytesPort {qs : List Byte} (h : qs.length ≤ 64) {i : Nat} (hi : i < qs.length) :
    byte (bytesPort qs) i = qs[i] := by
  apply BitVec.eq_of_toNat_eq
  rw [byte_toNat, bytesPort_toNat h, bytesNat_div_mod hi]

/-- The bytes put on a port are read back from it. -/
theorem portBytes_bytesPort {n : Nat} {qs : List Byte} (hn : qs.length = n) (h : n ≤ 64) :
    portBytes n (bytesPort qs) = qs := by
  subst hn
  refine List.ext_getElem (by simp [portBytes]) fun i _ hi => ?_
  rw [← byte_bytesPort h hi]
  simp [portBytes]

/-- The little-endian bytes of a value on a port are the value (R223). -/
theorem bytesPort_littleEndian {w n : Nat} (h : 8 * n = w) (v : BitVec w) : bytesPort (littleEndian n v) = port v := by
  rw [bytesPort, bytesNat_littleEndian, h, Nat.mod_eq_of_lt v.isLt, port, BitVec.ofNat_toNat]

/-! ### The number a sequence of bytes denotes (R225) -/

theorem bytesVal_of_length {qs : List Byte} {n : Nat} (h : qs.length = n) (isUnsigned : Bool) :
    bytesVal isUnsigned qs = val (!isUnsigned) (BitVec.ofNat (8 * n) (bytesNat qs)) := by
  subst h
  rfl

/-- The low n bytes of a value denote its low 8n bits, read as signed or unsigned. -/
theorem bytesVal_littleEndian (isUnsigned : Bool) {w : Nat} (n : Nat) (v : BitVec w) :
    bytesVal isUnsigned (littleEndian n v) = val (!isUnsigned) (v.setWidth (8 * n)) := by
  rw [bytesVal_of_length (littleEndian_length n v), bytesNat_littleEndian]
  congr 1
  apply BitVec.eq_of_toNat_eq
  rw [BitVec.toNat_ofNat, Nat.mod_mod, BitVec.toNat_setWidth]

/-- All bytes of a value denote it. -/
theorem bytesVal_littleEndian_of_width (isUnsigned : Bool) {w n : Nat} (h : 8 * n = w) (v : BitVec w) :
    bytesVal isUnsigned (littleEndian n v) = val (!isUnsigned) v := by
  subst h
  rw [bytesVal_littleEndian, BitVec.setWidth_eq]

/-! ### Writes (R221 to R224) -/

theorem bits_div_eight (ty : Ty) : ty.bits / 8 = ty.width.bytes := by
  have hbytes : 8 * ty.width.bytes = ty.bits := ty.width.bytes_mul
  omega

theorem bytes_le_portBytes (ty : Ty) : ty.width.bytes ≤ 64 := by
  have hbytes : 8 * ty.width.bytes = ty.bits := ty.width.bytes_mul
  have hfit := ty.bits_le_port
  omega

theorem writeResponse_of_le {ty : Ty} {q : Request} (h : ty.width.bytes ≤ byteCount q) (bytes : List Byte) :
    writeResponse ty q bytes = .value { r := bytesPort bytes, t := true } := if_pos h

theorem writeResponse_of_lt {ty : Ty} {q : Request} (h : ¬ty.width.bytes ≤ byteCount q) (bytes : List Byte) :
    writeResponse ty q bytes = .value {} := if_neg h

/-- Settles O55: with the capacity the bytes stand in their lanes in the opcode's order, without it there are none. -/
theorem writesGiveAllBytesOrNone : Obligations.WritesGiveAllBytesOrNone := by
  unfold Obligations.WritesGiveAllBytesOrNone
  intro ty q
  have hbits := ty.width.bytes_mul
  refine ⟨wordOf_command_toNat 0x38 0 0 ty, wordOf_command_toNat 0x39 0 0 ty, ?_⟩
  rw [bits_div_eight]
  split_ifs with hcapacity
  · have hlen := bigEndian_length ty.width.bytes (operandA ty q)
    have hbe := writeResponse_of_le hcapacity (bigEndian ty.width.bytes (operandA ty q))
    have hle := writeResponse_of_le hcapacity (littleEndian ty.width.bytes (operandA ty q))
    rw [bytesPort_littleEndian hbits] at hle
    refine ⟨⟨_, (responds_iff _ q _).2 hbe, rfl, rfl, rfl, rfl, ?bound, fun i hi => ?lane⟩, (responds_iff _ q _).2 hle⟩
    case bound =>
      have hlt := bytesPort_toNat_lt (bigEndian ty.width.bytes (operandA ty q))
      rwa [hlen, hbits] at hlt
    case lane =>
      rw [byte_bytesPort (hlen.trans_le (bytes_le_portBytes ty)) (hlen.symm ▸ hi)]
      simp [bigEndian]
  · exact ⟨(responds_iff _ q _).2 (writeResponse_of_lt hcapacity _),
      (responds_iff _ q _).2 (writeResponse_of_lt hcapacity _)⟩

/-! ### Reads (R225 to R228) -/

theorem readValueResponse_eq (ty : Ty) (x : Int) :
    readValueResponse ty x =
      if fits ty.signed ty.bits x then .value { r := port (bv ty.bits x), t := true } else .value {} := rfl

/-- What a read answers whose source denotes `x`: an illegal length, a value that fits, or false. -/
theorem read_follows_rule {i : Instr} {ty : Ty} {q : Request} {x : Int}
    (h : meaning i q = if 64 < q.b.toNat then raise .illegalRequest else readValueResponse ty x) :
    if 64 < q.b.toNat then Raises i q .illegalRequest
    else if fits ty.signed ty.bits x then Returns i q { r := port (bv ty.bits x), t := true } else Returns i q {} := by
  rw [readValueResponse_eq] at h
  split_ifs at h ⊢
  · exact (responds_iff i q _).2 h
  · exact (responds_iff i q _).2 h
  · exact (responds_iff i q _).2 h

/-- A codec read's word: opcode, type, and the extension in KIND bit 0 (R61, R65). -/
theorem codecRead_word (opc : BitVec 6) (ty : Ty) (isUnsigned : Bool) :
    (wordOf (command opc 0 (readKind isUnsigned) ty)).toNat =
      opc.toNat + typeBits ty + if isUnsigned then 0x400 else 0 := by
  have hkind : 1024 * (readKind isUnsigned).toNat = if isUnsigned then 0x400 else 0 := by cases isUnsigned <;> rfl
  rw [wordOf_command_toNat, hkind, BitVec.ofNat_eq_ofNat, BitVec.toNat_zero]
  omega

/-- The source bytes of a read, first byte least significant, denote the low 8n bits of A. -/
theorem bytesVal_sourceBytes (isUnsigned : Bool) (q : Request) :
    bytesVal isUnsigned (sourceBytes q) = val (!isUnsigned) (q.a.setWidth (8 * q.b.toNat)) :=
  bytesVal_littleEndian isUnsigned q.b.toNat q.a

/-- Settles O56: the source denotes the low bits of A. -/
theorem littleEndianReadsFit : Obligations.LittleEndianReadsFit := by
  unfold Obligations.LittleEndianReadsFit
  intro ty isUnsigned q
  refine ⟨codecRead_word 0x3B ty isUnsigned, read_follows_rule ?_⟩
  rw [← bytesVal_sourceBytes]
  rfl

/-- The number whose most significant byte is the first of the source bytes: its little-endian bytes are the source's in
reverse. -/
theorem reverse_sourceBytes {q : Request} {m : BitVec (8 * q.b.toNat)}
    (h : ∀ i : Nat, i < q.b.toNat → byte m (q.b.toNat - 1 - i) = byte q.a i) :
    (sourceBytes q).reverse = littleEndian q.b.toNat m := by
  have hsource : sourceBytes q = bigEndian q.b.toNat m :=
    List.map_congr_left fun i hi => (h i (List.mem_range.1 hi)).symm
  rw [hsource, bigEndian_eq_reverse, List.reverse_reverse]

/-- Settles O57: the source bytes in reverse are the little-endian bytes of m. -/
theorem bigEndianReadsFit : Obligations.BigEndianReadsFit := by
  unfold Obligations.BigEndianReadsFit
  intro ty isUnsigned q m
  refine ⟨codecRead_word 0x3A ty isUnsigned, fun hm => read_follows_rule ?_⟩
  rw [← bytesVal_littleEndian_of_width isUnsigned rfl m, ← reverse_sourceBytes hm]
  rfl

/-! ### The round trip (R230) -/

/-- A request whose port B says the number of bytes of a type. -/
theorem byteCount_ports (ty : Ty) (x : Port) :
    byteCount (ports x (BitVec.ofNat 512 (ty.bits / 8))) = ty.width.bytes := by
  have hfit := bytes_le_portBytes ty
  rw [bits_div_eight]
  exact ofNat_toNat_of_le (by omega)

/-- A value read by its own type's signedness fits, and is read as its pattern. -/
theorem readValueResponse_val (ty : Ty) (a : BitVec ty.bits) :
    readValueResponse ty (val ty.signed a) = .value { r := port a, t := true } := by
  rw [readValueResponse_eq, if_pos (fits_val ty.signed ty.bits_pos a), bv_val]

/-- The source of a read of W/8 bytes that were put on port A. -/
theorem sourceBytes_ports_bytesPort {ty : Ty} {qs : List Byte} (h : qs.length = ty.width.bytes) :
    sourceBytes (ports (bytesPort qs) (BitVec.ofNat 512 (ty.bits / 8))) = qs := by
  rw [sourceBytes, byteCount_ports]
  exact portBytes_bytesPort h (bytes_le_portBytes ty)

theorem not_portBytes_lt_byteCount_ports (ty : Ty) (x : Port) :
    ¬Config.portBytes < byteCount (ports x (BitVec.ofNat 512 (ty.bits / 8))) := by
  have hfit := bytes_le_portBytes ty
  rw [byteCount_ports, Config.portBytes]
  omega

/-- Settles O58: the bytes written are the bytes read, and in the opcode's order they denote the value. -/
theorem codecRoundTrip : Obligations.CodecRoundTrip := by
  unfold Obligations.CodecRoundTrip
  intro ty x
  have hval := bytesVal_littleEndian_of_width (!ty.signed) ty.width.bytes_mul (x.setWidth ty.bits)
  have hcapacity := (byteCount_ports ty x).ge
  rw [Bool.not_not] at hval
  refine ⟨⟨_, (responds_iff _ _ _).2 (writeResponse_of_le hcapacity _), (responds_iff _ _ _).2 ?be⟩,
    ⟨_, (responds_iff _ _ _).2 (writeResponse_of_le hcapacity _), (responds_iff _ _ _).2 ?le⟩⟩
  case be =>
    simp only [meaning, rdbeResponse]
    rw [if_neg (not_portBytes_lt_byteCount_ports ty _), sourceBytes_ports_bytesPort (bigEndian_length _ _),
      bigEndian_eq_reverse, List.reverse_reverse]
    exact (congrArg (readValueResponse ty) hval).trans (readValueResponse_val ty _)
  case le =>
    simp only [meaning, rdleResponse]
    rw [if_neg (not_portBytes_lt_byteCount_ports ty _), sourceBytes_ports_bytesPort (littleEndian_length _ _)]
    exact (congrArg (readValueResponse ty) hval).trans (readValueResponse_val ty _)

end Sys2Proof.Proofs
